-- ==== Sys2Proof/Word.lean ====
section
/-! DEFINITION. The word types of the core (00_scope.md R7, R8): bytes, 32-bit words, four-word values and
sixteen-byte blocks, with their sizes (R5) and the operators that rule R9 gives for every word. -/

namespace Sys2Proof

/-- Bits per word (R5). -/
abbrev WORDW : Nat := 32

/-- 32-bit words per 128-bit value (R5). -/
abbrev NWORDS : Nat := 4

/-- Bytes per message block (R5). -/
abbrev BLOCK : Nat := 16

/-- `u8` of rule R7. -/
abbrev Byte := BitVec 8

/-- `u32` of rule R7, WORDW = 32 bits. -/
abbrev Word := BitVec 32

/-- A 128-bit quantity as NWORDS = 4 words, word 0 least-significant (R8): `X[i]` is the field `wi`. -/
structure Quad where
  w0 : Word
  w1 : Word
  w2 : Word
  w3 : Word
deriving DecidableEq, Repr

/-- The all-zero four-word value. -/
def Quad.zero : Quad := ⟨0, 0, 0, 0⟩

/-- `A ^ B` on four-word values is the word-by-word XOR (R9). -/
def Quad.xor (a b : Quad) : Quad := ⟨a.w0 ^^^ b.w0, a.w1 ^^^ b.w1, a.w2 ^^^ b.w2, a.w3 ^^^ b.w3⟩

/-- BLOCK bytes, byte 0 first: a message block, the buffer BUF, or the byte view TAGB. -/
abbrev Block := Vector Byte BLOCK

/-- The block whose byte `i` is `f i`. -/
def Block.ofFn (f : Nat → Byte) : Block :=
  ⟨#[f 0, f 1, f 2, f 3, f 4, f 5, f 6, f 7, f 8, f 9, f 10, f 11, f 12, f 13, f 14, f 15], rfl⟩

/-- The all-zero block. -/
def Block.zero : Block := Block.ofFn fun _ => 0

end Sys2Proof
end

