-- ==== Sys2Proof/Syntax.lean ====
section
/-! DEFINITION. The six commands (30_encoding.md R72), one constructor for each row of the opcode table, and the
four host transactions (43_host_commands.md R160). -/

namespace Sys2Proof

/-- The commands. The only explicit operand is TLEN, "a natural number 0..31, taken as is" (30_encoding.md R73). -/
inductive Instr where
  /-- NOP, 43_host_commands.md R164. -/
  | nop
  /-- LDKEY, 43_host_commands.md R165. -/
  | ldkey
  /-- DERIVE, 40_field_doubling.md R98. -/
  | derive
  /-- DBL, 40_field_doubling.md R97. -/
  | dbl
  /-- PERM, 41_permutation.md R117. -/
  | perm
  /-- MAC with its tag length in bytes, 42_mac_block_processor.md R139. -/
  | mac (tlen : Nat)
deriving DecidableEq, Repr

/-- The host's moves (43_host_commands.md R160). -/
inductive HostTxn where
  /-- RD(idx): read a register (R161). -/
  | rd (idx : Nat)
  /-- WR(idx, val): write a register; on index 0 it issues the command word `val` (R162). -/
  | wr (idx : Nat) (val : Word)
  /-- MSGWR(off, b): write one message byte (R166). -/
  | msgwr (off : Nat) (b : Byte)
  /-- RESET (R167). -/
  | reset
deriving DecidableEq, Repr

end Sys2Proof
end

