-- ==== Sys2Proof/WellFormed.lean ====
section
/-! DEFINITION. Which terms of the syntax stand for a command word. -/

namespace Sys2Proof

/-- A command has an encoding: the field TLEN has 5 bits, so the values 0..31 are encodable (30_encoding.md R71,
R73). TLEN = 0 and 17..31 are well formed; they raise E_TAGLEN when executed. -/
def Instr.wf : Instr → Bool
  | .nop => true
  | .ldkey => true
  | .derive => true
  | .dbl => true
  | .perm => true
  | .mac tlen => decide (tlen < 32)

end Sys2Proof
end

