-- ==== Sys2Proof/Decode.lean ====
section
/-! DEFINITION. The command word (30_encoding.md R70 to R74): the decoder, total on every 32-bit word, and the
encoder written from the same table. -/

namespace Sys2Proof

/-- Why a word is no command (30_encoding.md R74). The machine raises Fault(E_OPCODE) for each. -/
inductive DecodeError where
  /-- R74 (a): OP in 0x6..0xF. -/
  | reservedOp
  /-- R74 (b): OP in 0x0..0x4 with any bit of w[27:0] set. -/
  | operandBits
  /-- R74 (c): OP = 0x5 with any bit of w[27:5] set. -/
  | reservedBits
deriving DecidableEq, Repr

/-- OP = w[31:28] (R71). -/
def fieldOp (w : Word) : BitVec 4 := w.extractLsb' 28 4

/-- RSV = w[27:5] (R71). -/
def fieldRsv (w : Word) : BitVec 23 := w.extractLsb' 5 23

/-- TLEN = w[4:0] (R71). -/
def fieldTlen (w : Word) : BitVec 5 := w.extractLsb' 0 5

/-- A command that has no operand: RSV and TLEN "must be zero" (R71). -/
def decodeFixed (w : Word) (i : Instr) : Except DecodeError Instr :=
  if fieldRsv w = 0 ∧ fieldTlen w = 0 then .ok i else .error .operandBits

/-- The opcode map (R72) and the illegal words (R74). -/
def decode (w : Word) : Except DecodeError Instr :=
  match (fieldOp w).toNat with
  | 0 => decodeFixed w .nop
  | 1 => decodeFixed w .ldkey
  | 2 => decodeFixed w .derive
  | 3 => decodeFixed w .dbl
  | 4 => decodeFixed w .perm
  | 5 => if fieldRsv w = 0 then .ok (.mac (fieldTlen w).toNat) else .error .reservedBits
  | _ => .error .reservedOp

/-- The word of a command (R71, R72): OP in bits 31:28, RSV zero, TLEN in bits 4:0. It is used on well-formed
commands only. -/
def encode : Instr → Word
  | .nop => 0x00000000
  | .ldkey => 0x10000000
  | .derive => 0x20000000
  | .dbl => 0x30000000
  | .perm => 0x40000000
  | .mac tlen => 0x50000000 ||| BitVec.ofNat 32 tlen

/-- The command word whose table row has `nbits` bits of value `w`. A command is one 32-bit word that the host
writes as data (R70), so there is no byte order to apply; every bit at or above `nbits` is 0. -/
def tableWord (nbits w : Nat) : Word := BitVec.ofNat 32 (w % 2 ^ nbits)

/-- The command the decoder reads from a word of the opcode table. No command is longer than 32 bits (R70). -/
def decodeTableWord (nbits w : Nat) : Option Instr :=
  if nbits ≤ 32 then (decode (tableWord nbits w)).toOption else none

end Sys2Proof
end

