-- ==== Sys2Proof/Config.lean ====
section
/-! DEFINITION. What the spec leaves open: the parameter MSGCAP (00_scope.md R6) and the unspecified message
bytes (10_state.md R41). Both are opaque: no proof can learn their value. -/

namespace Sys2Proof

/-- MSGCAP, "OPEN: a natural number, 0 <= MSGCAP <= 2^32 - 1" (00_scope.md R6), of the instance that
`State.reset` describes. DESIGN CHOICE (log entry 1), safe: it has no body. -/
opaque Config.msgCap : Word

/-- The byte that offset `i` of MSG holds in draw number `draw` as long as the host has not written it
(10_state.md R41; 93_implementation_defined.md U1, "any value: one draw of a u8 per byte at reset, stable until
written"). A free value, DESIGN CHOICE (log entry 2), safe: it has no body. -/
opaque Config.freeMsgByte (draw i : Nat) : Byte

end Sys2Proof
end

