-- ==== Sys2Proof/Machine/State.lean ====
section
/-! DEFINITION. The state of one core (10_state.md R20 to R33), its reset value (R40), and the reasons a step can
stop. -/

namespace Sys2Proof.Machine

/-- PHASE (10_state.md R33; codes in 30_encoding.md R75): which micro-operation is next. The codes 6 and 7 never
occur and are not representable (93_implementation_defined.md U9). -/
inductive Phase where
  | idle
  | init
  | absorb
  | select
  | final
  | extract
deriving DecidableEq, Repr

/-- SEL (10_state.md R33): the subkey selected for finalization. The code 3 never occurs (U9). -/
inductive Sel where
  | none
  | k1
  | k2
deriving DecidableEq, Repr

/-- ECODE (60_exceptions.md R181): 0 no fault, 1 E_OPCODE, 2 E_TAGLEN, 3 E_NOKEY, 4 E_NOSUBKEY, 5 E_MLEN. The
codes 6..15 never occur (U9). -/
inductive ECode where
  | none
  | opcode
  | tagLen
  | noKey
  | noSubkey
  | mLen
deriving DecidableEq, Repr

/-- A tag length as TL holds it: 0, or 1..16 (10_state.md R29, R30; the values 17..31 are excluded, U9). -/
abbrev TagLen := Fin 17

/-- The message space as the bytes the host has written since the last reset: offsets strictly rising. An unlisted
offset has no written value. -/
abbrev Memory := List Host.Cell

/-- The state of one instance (10_state.md R20). The last five fields are not registers of the spec; log entries
1 to 3 and 5 say what they stand for. -/
structure State where
  /-- KEY (R21). -/
  key : Quad
  /-- K1 (R22). -/
  k1 : Quad
  /-- K2 (R22). -/
  k2 : Quad
  /-- V, the state of a MAC invocation (R23). -/
  v : Quad
  /-- D, the operand register (R24). -/
  d : Quad
  /-- BUF, the trailing-block buffer (R25). -/
  buf : Block
  /-- TAG (R26). -/
  tag : Quad
  /-- MLEN, the message length (R27). -/
  mlen : Word
  /-- KV, key valid (R30). -/
  kv : Bool
  /-- SKV, subkeys valid (R30). -/
  skv : Bool
  /-- TV, tag valid (R30). -/
  tv : Bool
  /-- ERR, a fault has been recorded (R30). -/
  err : Bool
  /-- ECODE, the code of the recorded fault (R30). -/
  ecode : ECode
  /-- TL, the tag length of the last successful MAC command (R30). -/
  tl : TagLen
  /-- PHASE (R33). -/
  phase : Phase
  /-- OFF, the offset of the first unconsumed message byte (R33). -/
  off : Word
  /-- SEL (R33). -/
  sel : Sel
  /-- RND, the round counter, 0..ROUNDS (R33; values above 8 are excluded, U9). -/
  rnd : Fin 9
  /-- MSG (R31). -/
  msg : Memory
  /-- The TLEN "held for the duration of the command" (42_mac_block_processor.md, section 3). DEDUCED, log entry 5. -/
  taglen : TagLen
  /-- MSGCAP of this instance (00_scope.md R6), changed by no step. DESIGN CHOICE, log entry 1. -/
  msgCap : Word
  /-- The number of the draw that gives the unwritten bytes of MSG (10_state.md R41). DESIGN CHOICE, log entry 2. -/
  draw : Nat
  /-- The host's transactions not yet performed, oldest first (R20). DESIGN CHOICE, log entry 3. -/
  pending : List HostTxn
  /-- The answers of the RD transactions performed, oldest first. DESIGN CHOICE, log entry 3. -/
  replies : List Word
deriving DecidableEq, Repr

/-- The machine right after reset (10_state.md R40): every register, flag and sequencer field is zero, no byte of MSG
has been written (R41), no transaction is waiting. -/
def State.reset : State where
  key := Quad.zero
  k1 := Quad.zero
  k2 := Quad.zero
  v := Quad.zero
  d := Quad.zero
  buf := Block.zero
  tag := Quad.zero
  mlen := 0
  kv := false
  skv := false
  tv := false
  err := false
  ecode := .none
  tl := 0
  phase := .idle
  off := 0
  sel := .none
  rnd := 0
  msg := []
  taglen := 0
  msgCap := Config.msgCap
  draw := 0
  pending := []
  replies := []

/-- The reasons a step can stop. All five are for states that no run from reset reaches; the faults of
60_exceptions.md are NEXT states (R184) and are not among them. -/
inductive Fault where
  /-- Raised by `step` when OFF is not a multiple of 16: "stuck (no rule applies)" (93_implementation_defined.md
  U9). Safe: the machine stops where the spec gives no rule. -/
  | offNotBlockMultiple
  /-- Raised by U_ABSORB and U_SELECT when OFF > MLEN, which rule R33 of 10_state.md excludes ("OFF <= MLEN").
  Safe: the subtraction MLEN - OFF has no value there. -/
  | offBeyondMessage
  /-- Raised by U_ABSORB and U_SELECT when a read leaves MSG: MemRead "is defined only for `off + n <= MSGCAP`"
  (00_scope.md R11). Safe: the spec has no such byte. -/
  | readOutsideMsg
  /-- Raised by U_SELECT when more than 16 bytes are unconsumed, which rule R142 of 42_mac_block_processor.md excludes
  ("0 <= r <= 16"). Safe: BUF has no byte to put them in. -/
  | tailOverBlock
  /-- Raised by a MAC command whose sequencer is not at rest after nfull(MLEN) + 5 micro-operations. Rule R148 of
  42_mac_block_processor.md says that it always is, so nothing reaches it. Safe. -/
  | sequencerOverrun
deriving DecidableEq, Repr

/-- The reasons an instruction has no meaning. -/
inductive Refusal where
  /-- Raised by the dispatch for an instruction without a meaning, by its mnemonic; no arm does so now. Safe. -/
  | notModelled (mnemonic : String)
deriving DecidableEq, Repr

/-- The outcome of one step of this machine. -/
abbrev Outcome := Host.Outcome State Fault Refusal

end Sys2Proof.Machine
end

