-- ==== Sys2Proof/Machine/Flags.lean ====
section
/-! DEFINITION. The flags as the host sees them: the codes of 30_encoding.md R75 and the register STATUS
(10_state.md R29). There are no arithmetic condition codes (R30). -/

namespace Sys2Proof.Machine

/-- The 3-bit code of PHASE (30_encoding.md R75). -/
def phaseCode : Phase → BitVec 3
  | .idle => 0
  | .init => 1
  | .absorb => 2
  | .select => 3
  | .final => 4
  | .extract => 5

/-- The 2-bit code of SEL (R75). -/
def selCode : Sel → BitVec 2
  | .none => 0
  | .k1 => 1
  | .k2 => 2

/-- The 4-bit code of ECODE (R75; 60_exceptions.md R181). -/
def ecodeCode : ECode → BitVec 4
  | .none => 0
  | .opcode => 1
  | .tagLen => 2
  | .noKey => 3
  | .noSubkey => 4
  | .mLen => 5

/-- A flag as bit 0 of a word. -/
def flagWord (b : Bool) : Word := (BitVec.ofBool b).setWidth 32

/-- `STATUS = KV | SKV << 1 | TV << 2 | ERR << 3 | ECODE << 4 | TL << 8` (10_state.md R29). -/
def State.status (s : State) : Word :=
  flagWord s.kv ||| flagWord s.skv <<< 1 ||| flagWord s.tv <<< 2 ||| flagWord s.err <<< 3 |||
    (ecodeCode s.ecode).setWidth 32 <<< 4 ||| BitVec.ofNat 32 s.tl.val <<< 8

end Sys2Proof.Machine
end

