-- ==== Sys2Proof/Machine/Constants.lean ====
section
/-! DEFINITION. The fixed algorithm parameters as named constants (00_scope.md R5). The sizes
WORDW, NWORDS and BLOCK stand beside the types they size, in Word.lean. -/

namespace Sys2Proof.Machine

/-- Rounds per `permute` call. -/
def ROUNDS : Nat := 8

/-- The reduction constant of `double`: x^7 + x^2 + x + 1. -/
def RCONST : Word := 0x87

/-- The padding marker byte. -/
def PADBYTE : Byte := 0x01

/-- The smallest legal tag length. -/
def TAGMIN : Nat := 1

/-- The largest legal tag length. -/
def TAGMAX : Nat := 16

/-- The six rotation amounts of a round, in order of use: (5, 16, 8, 13, 7, 16). -/
def ROT : Nat → Nat
  | 0 => 5
  | 1 => 16
  | 2 => 8
  | 3 => 13
  | 4 => 7
  | _ => 16

end Sys2Proof.Machine
end

