-- ==== Sys2Proof/Machine/Operands.lean ====
section
/-! DEFINITION. Operand forms: the byte layout of words and blocks (00_scope.md R8, R10; 20_memory.md R52), the
operand TLEN (30_encoding.md R73) and the words of a four-word register. -/

namespace Sys2Proof.Machine

/-- `le32(b0, b1, b2, b3)`: `b0` is the least-significant byte (00_scope.md R10). -/
def le32 (b0 b1 b2 b3 : Byte) : Word := b3 ++ b2 ++ b1 ++ b0

/-- `words(B)[j] = le32(B[4j], B[4j+1], B[4j+2], B[4j+3])` (R10). -/
def words (b : Block) : Quad :=
  ⟨le32 b[0] b[1] b[2] b[3], le32 b[4] b[5] b[6] b[7],
   le32 b[8] b[9] b[10] b[11], le32 b[12] b[13] b[14] b[15]⟩

/-- Word `j` of a four-word register, `X[j]` with 0 <= j <= 3; there is no other word. -/
def quadWord (x : Quad) : Nat → Word
  | 0 => x.w0
  | 1 => x.w1
  | 2 => x.w2
  | 3 => x.w3
  | _ => 0

/-- `X[j] <- w` with 0 <= j <= 3; there is no other word to write. -/
def quadSetWord (x : Quad) (j : Nat) (w : Word) : Quad :=
  match j with
  | 0 => ⟨w, x.w1, x.w2, x.w3⟩
  | 1 => ⟨x.w0, w, x.w2, x.w3⟩
  | 2 => ⟨x.w0, x.w1, w, x.w3⟩
  | 3 => ⟨x.w0, x.w1, x.w2, w⟩
  | _ => x

/-- `bytes(X)[4j + k] = X[j][8k+7 : 8k]` (R10). -/
def byteOf (x : Quad) (i : Nat) : Byte := (quadWord x (i / 4)).extractLsb' (8 * (i % 4)) 8

/-- `bytes(X)`, the sixteen bytes of a four-word value (R10). -/
def bytes (x : Quad) : Block := Block.ofFn (byteOf x)

/-- `val128(X) = X[0] + 2^32 * X[1] + 2^64 * X[2] + 2^96 * X[3]` (R8). -/
def val128 (x : Quad) : Nat :=
  x.w0.toNat + 2 ^ 32 * x.w1.toNat + 2 ^ 64 * x.w2.toNat + 2 ^ 96 * x.w3.toNat

/-- The first sixteen bytes of a byte sequence, filled up with zero bytes (the "zero bytes filling the remainder to
16 bytes total" of 30_encoding.md R77; a sequence of sixteen bytes is the block itself, R76). -/
def blockOfList (bs : List Byte) : Block := Block.ofFn fun i => bs.getD i 0

/-- The padded trailing block of `r <= 15` tail bytes: the bytes, the marker 0x01, zero bytes (30_encoding.md R77). -/
def padBlock (tail : List Byte) : Block := blockOfList (tail ++ [PADBYTE])

/-- The operand TLEN as a tag length: the legal values are TAGMIN..TAGMAX, every other one has no tag length
(30_encoding.md R73). -/
def legalTagLen (tlen : Nat) : Option TagLen :=
  if h : TAGMIN ≤ tlen ∧ tlen ≤ TAGMAX then some ⟨tlen, Nat.lt_succ_of_le h.2⟩ else none

end Sys2Proof.Machine
end

