-- ==== Sys2Proof/Machine/Ops.lean ====
section
/-! DEFINITION. The shared operations over memory and registers: the message space, taking a fault, the reset that
clears it, and the register updates that the commands are made of. -/

namespace Sys2Proof.Machine

/-- The written byte at offset `a`, if the host has written one since the last reset. -/
def memRead : Memory → Nat → Option Byte
  | [], _ => none
  | (x, b) :: rest, a => if x = a then some b else memRead rest a

/-- `MSG[a] <- b`, keeping the offsets strictly rising. -/
def memWrite : Memory → Nat → Byte → Memory
  | [], a, b => [(a, b)]
  | (x, c) :: rest, a, b =>
    if a < x then (a, b) :: (x, c) :: rest
    else if a = x then (a, b) :: rest
    else (x, c) :: memWrite rest a b

/-- The listed offsets are at least `lo` and rise strictly. -/
def memRisingFrom (lo : Nat) : Memory → Bool
  | [] => true
  | (x, _) :: rest => decide (lo ≤ x) && memRisingFrom (x + 1) rest

/-- The canonical form of a memory: offsets strictly rising. An unlisted offset reads as no value, which no entry
equals. -/
def Memory.wf (m : Memory) : Bool := memRisingFrom 0 m

/-- Every listed offset lies in MSG, whose offsets are 0 .. cap-1 (20_memory.md R50). -/
def memWithin (cap : Nat) (m : Memory) : Bool := m.all fun c => decide (c.1 < cap)

/-- `MSG[i]`: the byte last written, or the unspecified value that the offset holds since the last reset
(10_state.md R41). -/
def State.msgByte (s : State) (i : Nat) : Byte := (memRead s.msg i).getD (Config.freeMsgByte s.draw i)

/-- The bytes `MSG[off], ..., MSG[off+n-1]`, lowest offset first. -/
def State.msgSlice (s : State) (off n : Nat) : List Byte := (List.range n).map fun i => s.msgByte (off + i)

/-- `MemRead(MSG, off, n)`, "defined only for `off + n <= MSGCAP`" (00_scope.md R11). -/
def State.readMsg (s : State) (off n : Nat) : Option (List Byte) :=
  if off + n ≤ s.msgCap.toNat then some (s.msgSlice off n) else none

/-- The message of a MAC invocation, `MSG[0 .. MLEN-1]` (20_memory.md R51). -/
def State.message (s : State) : List Byte := s.msgSlice 0 s.mlen.toNat

/-- `raise Fault(code)` "does exactly this and nothing else" (60_exceptions.md R184). -/
def State.raise (s : State) (code : ECode) : State := { s with err := true, ecode := code }

/-- The RESET transaction, "the only way to clear ERR and ECODE" (60_exceptions.md R186): every register takes its
reset value (10_state.md R40) and MSG becomes unspecified (R41), so no byte is written and the next draw gives the
contents. The capacity and the host's own lists are no state of the core and stay. -/
def State.hostReset (s : State) : State :=
  { State.reset with
    msgCap := s.msgCap, draw := s.draw + 1, pending := s.pending, replies := s.replies }

/-- "While ERR = 1 every write to CMD is ignored" (60_exceptions.md R185). -/
def ignoredIfErr (s : State) (act : State → Outcome) : Outcome := if s.err then .next s else act s

/-- `D <- x`. -/
def State.setD (s : State) (x : Quad) : State := { s with d := x }

/-- `K1 <- a; K2 <- b; SKV <- 1` (40_field_doubling.md R98). -/
def State.setSubkeys (s : State) (a b : Quad) : State := { s with k1 := a, k2 := b, skv := true }

/-- `KEY <- x; KV <- 1`, with the subkeys and the tag of the old key withdrawn (43_host_commands.md R165). -/
def State.setKey (s : State) (x : Quad) : State :=
  { s with
    key := x, kv := true, skv := false, k1 := Quad.zero, k2 := Quad.zero,
    tv := false, tl := 0, tag := Quad.zero }

/-- The writes `MemWrite(TAGB, i, 1, f i)` for i = 0..15, then `TL <- n; TV <- 1` (42_mac_block_processor.md R144);
`TAG = words(TAGB)` (10_state.md R26). -/
def State.deliverTag (s : State) (f : Nat → Byte) (n : TagLen) : State :=
  { s with tag := words (Block.ofFn f), tl := n, tv := true }

/-- The scratch state returned to idle: V, BUF, OFF, SEL, RND zero and PHASE IDLE (42_mac_block_processor.md R144);
the held TLEN ends with its command. -/
def State.toIdle (s : State) : State :=
  { s with
    v := Quad.zero, buf := Block.zero, off := 0, sel := .none, rnd := 0, phase := .idle, taglen := 0 }

/-- The acceptance of a MAC command: `PHASE <- INIT`, and its TLEN is held (42_mac_block_processor.md, section 3). -/
def State.acceptMac (s : State) (t : TagLen) : State := { s with phase := .init, taglen := t }

/-- `V <- KEY; OFF <- 0; SEL <- 0; PHASE <- ABSORB` (42_mac_block_processor.md R140). -/
def State.startAbsorb (s : State) : State := { s with v := s.key, off := 0, sel := .none, phase := .absorb }

/-- `V <- x`. -/
def State.setV (s : State) (x : Quad) : State := { s with v := x }

/-- `OFF <- OFF + 16` (42_mac_block_processor.md R141). -/
def State.advanceOff (s : State) : State := { s with off := s.off + BitVec.ofNat 32 BLOCK }

/-- `PHASE <- p`. -/
def State.setPhase (s : State) (p : Phase) : State := { s with phase := p }

/-- `BUF <- b; SEL <- x; PHASE <- FINAL` (42_mac_block_processor.md R142). -/
def State.selectTail (s : State) (b : Block) (x : Sel) : State := { s with buf := b, sel := x, phase := .final }

/-- `MLEN <- val` (10_state.md R27). -/
def State.setMlen (s : State) (val : Word) : State := { s with mlen := val }

/-- MSGWR(off, b): `if off < MSGCAP then MSG[off] <- b`, otherwise nothing (43_host_commands.md R166). -/
def State.writeMsg (s : State) (off : Nat) (b : Byte) : State :=
  if off < s.msgCap.toNat then { s with msg := memWrite s.msg off b } else s

/-- The answer of an RD transaction is handed to the host. -/
def State.reply (s : State) (w : Word) : State := { s with replies := s.replies ++ [w] }

/-- The host's transactions that remain. -/
def State.setPending (s : State) (ts : List HostTxn) : State := { s with pending := ts }

/-- RD(idx): the value of a host register (43_host_commands.md R161). CMD and the undefined indices read 0. -/
def State.readReg (s : State) (idx : Nat) : Word :=
  if idx = 0 then 0
  else if idx = 1 then s.status
  else if idx = 2 then s.mlen
  else if idx = 3 then 0
  else if idx ≤ 7 then quadWord s.d (idx - 4)
  else if idx ≤ 11 then quadWord s.k1 (idx - 8)
  else if idx ≤ 15 then quadWord s.k2 (idx - 12)
  else if idx ≤ 19 then quadWord s.tag (idx - 16)
  else 0

/-- WR(idx, val) on every index but CMD (43_host_commands.md R162): only MLEN and D take a value, the read-only and
undefined indices ignore it. -/
def State.writeReg (s : State) (idx : Nat) (val : Word) : State :=
  if idx = 2 then s.setMlen val
  else if 4 ≤ idx ∧ idx ≤ 7 then s.setD (quadSetWord s.d (idx - 4) val)
  else s

end Sys2Proof.Machine
end

