-- ==== Sys2Proof/Machine/Dbl.lean ====
section
/-! DEFINITION. The DBL unit: `double` over GF(2^128) and the commands DBL and DERIVE (40_field_doubling.md). -/

namespace Sys2Proof.Machine

/-- `double` (R91): the 128-bit value shifted left by one bit, with RCONST XORed into word 0 when bit 127 of the
original value was set. -/
def double (x : Quad) : Quad :=
  { w0 := (x.w0 <<< 1) ^^^ (if x.w3 >>> 31 = 1 then RCONST else 0)
    w1 := (x.w1 <<< 1) ||| (x.w0 >>> 31)
    w2 := (x.w2 <<< 1) ||| (x.w1 >>> 31)
    w3 := (x.w3 <<< 1) ||| (x.w2 >>> 31) }

/-- The inverse of `double` as R95 gives it. No command computes it. -/
def halve (y : Quad) : Quad :=
  let c := y.w0 &&& 1
  let z0 := y.w0 ^^^ (if c = 1 then RCONST else 0)
  { w0 := (z0 >>> 1) ||| ((y.w1 &&& 1) <<< 31)
    w1 := (y.w1 >>> 1) ||| ((y.w2 &&& 1) <<< 31)
    w2 := (y.w2 >>> 1) ||| ((y.w3 &&& 1) <<< 31)
    w3 := (y.w3 >>> 1) ||| (c <<< 31) }

/-- `derive_subkeys(key) = (double(key), double(double(key)))` (R96). -/
def deriveSubkeys (key : Quad) : Quad × Quad := (double key, double (double key))

/-- DBL (R97): `D <- double(D)`. -/
def execDbl (s : State) : Outcome := ignoredIfErr s fun s => .next (s.setD (double s.d))

/-- DERIVE (R98): Fault(E_NOKEY) when KV = 0, else K1, K2 and SKV. -/
def execDerive (s : State) : Outcome :=
  ignoredIfErr s fun s =>
    if s.kv then .next (s.setSubkeys (deriveSubkeys s.key).1 (deriveSubkeys s.key).2)
    else .next (s.raise .noKey)

end Sys2Proof.Machine
end

