-- ==== Sys2Proof/Machine/HostCommands.lean ====
section
/-! DEFINITION. The commands NOP and LDKEY (43_host_commands.md R164, R165). -/

namespace Sys2Proof.Machine

/-- NOP (R164): no state change. -/
def execNop (s : State) : Outcome := .next s

/-- LDKEY (R165): `KEY <- D`, and the subkeys and the tag of the old key are withdrawn. -/
def execLdkey (s : State) : Outcome := ignoredIfErr s fun s => .next (s.setKey s.d)

end Sys2Proof.Machine
end

