-- ==== Sys2Proof/Machine/Perm.lean ====
section
/-! DEFINITION. The PERM unit: the ARX permutation, its round counter and the command PERM (41_permutation.md). -/

namespace Sys2Proof.Machine

/-- `add32(a, b) = (a + b) mod 2^32`, the carry discarded (00_scope.md R9). -/
def add32 (a b : Word) : Word := a + b

/-- `sub32(a, b) = (a - b) mod 2^32` (R116). -/
def sub32 (a b : Word) : Word := a - b

/-- `rotl32(x, n) = ((x << n) mod 2^32) | (x >> (32 - n))` for 1 <= n <= 31 (00_scope.md R9). -/
def rotl32 (x : Word) (n : Nat) : Word := (x <<< n) ||| (x >>> (WORDW - n))

/-- `rotr32(x, n) = rotl32(x, 32 - n)` (00_scope.md R9). -/
def rotr32 (x : Word) (n : Nat) : Word := rotl32 x (WORDW - n)

/-- `round`, one round: the fourteen numbered assignments of R111, each using the current values. -/
def arxRound (x : Quad) : Quad :=
  let v0 := x.w0
  let v1 := x.w1
  let v2 := x.w2
  let v3 := x.w3
  let v0 := add32 v0 v1
  let v1 := rotl32 v1 (ROT 0)
  let v1 := v1 ^^^ v0
  let v0 := rotl32 v0 (ROT 1)
  let v2 := add32 v2 v3
  let v3 := rotl32 v3 (ROT 2)
  let v3 := v3 ^^^ v2
  let v0 := add32 v0 v3
  let v3 := rotl32 v3 (ROT 3)
  let v3 := v3 ^^^ v0
  let v2 := add32 v2 v1
  let v1 := rotl32 v1 (ROT 4)
  let v1 := v1 ^^^ v2
  let v2 := rotl32 v2 (ROT 5)
  ⟨v0, v1, v2, v3⟩

/-- The round applied `n` times. -/
def rounds : Nat → Quad → Quad
  | 0, x => x
  | n + 1, x => rounds n (arxRound x)

/-- `permute`: the round "applied exactly 8 times per permutation call" (R112). -/
def permute (x : Quad) : Quad := rounds ROUNDS x

/-- The inverse round as R116 gives it. No command computes it. -/
def roundInv (x : Quad) : Quad :=
  let v0 := x.w0
  let v1 := x.w1
  let v2 := x.w2
  let v3 := x.w3
  let v2 := rotr32 v2 (ROT 5)
  let v1 := v1 ^^^ v2
  let v1 := rotr32 v1 (ROT 4)
  let v2 := sub32 v2 v1
  let v3 := v3 ^^^ v0
  let v3 := rotr32 v3 (ROT 3)
  let v0 := sub32 v0 v3
  let v3 := v3 ^^^ v2
  let v3 := rotr32 v3 (ROT 2)
  let v2 := sub32 v2 v3
  let v0 := rotr32 v0 (ROT 1)
  let v1 := v1 ^^^ v0
  let v1 := rotr32 v1 (ROT 0)
  let v0 := sub32 v0 v1
  ⟨v0, v1, v2, v3⟩

/-- The inverse round applied `n` times. -/
def roundsInv : Nat → Quad → Quad
  | 0, x => x
  | n + 1, x => roundsInv n (roundInv x)

/-- `permute^-1` "applies it 8 times" (R116). -/
def permuteInv (x : Quad) : Quad := roundsInv ROUNDS x

/-- RND after one more round: "incremented after each round, and is returned to 0 when it reaches ROUNDS" (R118). -/
def nextRnd (r : Fin 9) : Fin 9 := if r.val + 1 = ROUNDS then 0 else r + 1

/-- The PERM unit while a `permute` runs: the round counter and the four words it works on. -/
structure PermUnit where
  rnd : Fin 9
  x : Quad
deriving DecidableEq, Repr

/-- One round of the PERM unit. -/
def permTick (u : PermUnit) : PermUnit := ⟨nextRnd u.rnd, arxRound u.x⟩

/-- `n` rounds of the PERM unit. -/
def permTicks : Nat → PermUnit → PermUnit
  | 0, u => u
  | n + 1, u => permTicks n (permTick u)

/-- The PERM unit's run on `x`: "RND is 0 when a `permute` starts" (R118), and ROUNDS rounds follow. -/
def permRun (x : Quad) : PermUnit := permTicks ROUNDS ⟨0, x⟩

/-- `V <- permute(V)` inside a MAC command, by the PERM unit. -/
def State.permuteV (s : State) : State := { s with v := (permRun s.v).x, rnd := (permRun s.v).rnd }

/-- PERM (R117): `D <- permute(D)`. RND starts and ends at 0 (R118) and V is not used. -/
def execPerm (s : State) : Outcome := ignoredIfErr s fun s => .next (s.setD (permute s.d))

end Sys2Proof.Machine
end

