-- ==== Sys2Proof/Machine/Mbp.lean ====
section
/-! DEFINITION. The MBP unit: the function `mac` (42_mac_block_processor.md R130 to R136), the micro-operations of
the sequencer (R140 to R145) and the command MAC (R139). -/

namespace Sys2Proof.Machine

/-! ## The functional layer -/

/-- The number of blocks absorbed in step 2 (R132). -/
def nfull (mlen : Nat) : Nat := if mlen = 0 then 0 else (mlen - 1) / BLOCK

/-- A nonzero multiple of 16 (R133). -/
def isfull (mlen : Nat) : Bool := mlen ≠ 0 && mlen % BLOCK = 0

/-- Block `j` of a message, `message[16j .. 16j+15]` (20_memory.md R51). -/
def blockAt (m : List Byte) (j : Nat) : Block := blockOfList ((m.drop (BLOCK * j)).take BLOCK)

/-- `absorb(V, B) = permute(V ^ words(B))` (R132). -/
def absorb (v : Quad) (b : Block) : Quad := permute (v.xor (words b))

/-- Step 2 (R132): the blocks 0 .. n-1 absorbed in ascending order. -/
def absorbBlocks (m : List Byte) (v : Quad) : Nat → Quad
  | 0 => v
  | n + 1 => absorb (absorbBlocks m v n) (blockAt m n)

/-- Step 3 (R133): the trailing block and the subkey selected for it. -/
def trail (m : List Byte) : Block × Sel :=
  if isfull m.length then (blockAt m (nfull m.length), .k1)
  else (padBlock (m.drop (BLOCK * nfull m.length)), .k2)

/-- `L`: K1 when SEL is 1, else K2 (R134; R143 "if SEL == 1 then K1 else K2"). -/
def pickSubkey (sel : Sel) (k1 k2 : Quad) : Quad := if sel = .k1 then k1 else k2

/-- Step 4 (R134): `finalize(V, T, L) = permute(V ^ words(T) ^ L) ^ L`. -/
def finalize (v : Quad) (t : Block) (l : Quad) : Quad := (permute ((v.xor (words t)).xor l)).xor l

/-- The final state of a MAC invocation: steps 1 to 4 (R131 to R134). -/
def macState (key k1 k2 : Quad) (m : List Byte) : Quad :=
  finalize (absorbBlocks m key (nfull m.length)) (trail m).1 (pickSubkey (trail m).2 k1 k2)

/-- `mac(key, k1, k2, message, mlen, taglen)` (R136), with `mlen` the length of `message` (R130). "Outside
`1 <= taglen <= 16` the function is not defined": it has no value there (93_implementation_defined.md U2). -/
def mac (key k1 k2 : Quad) (m : List Byte) (taglen : Nat) : Option (List Byte) :=
  if TAGMIN ≤ taglen ∧ taglen ≤ TAGMAX then some ((bytes (macState key k1 k2 m)).toList.take taglen) else none

/-! ## The micro-operations -/

/-- U_INIT (R140). -/
def uInit (s : State) : Outcome := .next s.startAbsorb

/-- `MLEN - OFF`, the number of unconsumed message bytes (R141, R142). -/
def State.unconsumed (s : State) : Nat := s.mlen.toNat - s.off.toNat

/-- `V <- V ^ x`. -/
def State.xorV (s : State) (x : Quad) : State := s.setV (s.v.xor x)

/-- The subkey that SEL selects (R143). -/
def State.subkey (s : State) : Quad := pickSubkey s.sel s.k1 s.k2

/-- U_ABSORB (R141): one block absorbed while more than 16 bytes are unconsumed, else on to SELECT. -/
def uAbsorb (s : State) : Outcome :=
  if s.mlen < s.off then .fault .offBeyondMessage
  else if s.unconsumed > BLOCK then
    match s.readMsg s.off.toNat BLOCK with
    | none => .fault .readOutsideMsg
    | some bs => .next (s.xorV (words (blockOfList bs))).permuteV.advanceOff
  else .next (s.setPhase .select)

/-- U_SELECT (R142), the padding selector: BUF and SEL from the `r = MLEN - OFF` unconsumed bytes, 0 <= r <= 16. -/
def uSelect (s : State) : Outcome :=
  if s.mlen < s.off then .fault .offBeyondMessage
  else if s.unconsumed > BLOCK then .fault .tailOverBlock
  else
    match s.readMsg s.off.toNat s.unconsumed with
    | none => .fault .readOutsideMsg
    | some bs =>
      if s.unconsumed = BLOCK then .next (s.selectTail (blockOfList bs) .k1)
      else .next (s.selectTail (padBlock bs) .k2)

/-- U_FINAL (R143): the trailing block and the subkey XORed in, `permute`, the subkey XORed in again. -/
def uFinal (s : State) : Outcome :=
  .next ((((s.xorV (words s.buf)).xorV s.subkey).permuteV.xorV s.subkey).setPhase .extract)

/-- The sixteen bytes that U_EXTRACT writes to TAGB: `if i < taglen then bytes(V)[i] else 0x00` (R144). -/
def tagByte (v : Quad) (taglen : TagLen) (i : Nat) : Byte := if i < taglen.val then byteOf v i else 0

/-- U_EXTRACT (R144): the tag is delivered and the scratch state returns to idle. -/
def uExtract (s : State) : Outcome := .next (State.toIdle (s.deliverTag (tagByte s.v s.taglen) s.taglen))

/-- The core agent's step by PHASE (R145); in IDLE there is none to take. -/
def microStep (s : State) : Outcome :=
  match s.phase with
  | .idle => .next s
  | .init => uInit s
  | .absorb => uAbsorb s
  | .select => uSelect s
  | .final => uFinal s
  | .extract => uExtract s

/-- The micro-operations "until PHASE = IDLE", at most `n` of them. -/
def runSequencer : Nat → State → Outcome
  | 0, s => if s.phase = .idle then .next s else .fault .sequencerOverrun
  | n + 1, s =>
    if s.phase = .idle then .next s
    else
      match microStep s with
      | .next t => runSequencer n t
      | .fault f => .fault f
      | .refused r => .refused r

/-! ## The command -/

/-- MAC (R139): the four checks in their order (60_exceptions.md R183) before anything is changed; then the
micro-operations from INIT, nfull(MLEN) + 5 of them (R148), inside the one atomic transition (10_state.md R20). -/
def execMac (tlen : Nat) (s : State) : Outcome :=
  ignoredIfErr s fun s =>
    match legalTagLen tlen with
    | none => .next (s.raise .tagLen)
    | some t =>
      if !s.kv then .next (s.raise .noKey)
      else if !s.skv then .next (s.raise .noSubkey)
      else if s.msgCap < s.mlen then .next (s.raise .mLen)
      else runSequencer (nfull s.mlen.toNat + 5) (s.acceptMac t)

end Sys2Proof.Machine
end

