-- ==== Sys2Proof/Machine/Dispatch.lean ====
section
/-! DEFINITION. The meaning of every command, one arm for each (43_host_commands.md R163). -/

namespace Sys2Proof.Machine

def exec (i : Instr) (s : State) : Host.Outcome State Fault Refusal :=
  match i with
  | .nop => Sys2Proof.Machine.execNop s
  | .ldkey => Sys2Proof.Machine.execLdkey s
  | .derive => Sys2Proof.Machine.execDerive s
  | .dbl => Sys2Proof.Machine.execDbl s
  | .perm => Sys2Proof.Machine.execPerm s
  | .mac tlen => Sys2Proof.Machine.execMac tlen s

end Sys2Proof.Machine
end

