-- ==== Sys2Proof/Machine/Port.lean ====
section
/-! DEFINITION. The host port: the four host transactions (43_host_commands.md R160 to R167), the core agent's step,
and the host's pseudo-operations (30_encoding.md R80, R81). -/

namespace Sys2Proof.Machine

/-- Command dispatch on WR(0, w) (43_host_commands.md R163): the decoded command runs to completion; an illegal word
raises Fault(E_OPCODE) (30_encoding.md R74) unless ERR = 1. -/
def commandWord (w : Word) (s : State) : Outcome :=
  match decode w with
  | .ok i => exec i s
  | .error _ => ignoredIfErr s fun s => .next (s.raise .opcode)

/-- One host transaction (43_host_commands.md R161, R162, R166, R167). An RD changes no state: its answer goes to the
host. -/
def hostTxn (t : HostTxn) (s : State) : Outcome :=
  match t with
  | .rd idx => .next (s.reply (s.readReg idx))
  | .wr idx val => if idx = 0 then commandWord val s else .next (s.writeReg idx val)
  | .msgwr off b => .next (s.writeMsg off b)
  | .reset => .next s.hostReset

/-- With the sequencer idle the core performs the oldest waiting transaction; with none it "is idle and keeps all
state" (60_exceptions.md R193). -/
def portStep (s : State) : Outcome :=
  match s.pending with
  | [] => .next s
  | t :: rest => hostTxn t (s.setPending rest)

/-- One step of the machine: "No host transaction is accepted while PHASE != IDLE" (42_mac_block_processor.md R145);
then one micro-operation. An OFF that is no multiple of 16 is stuck (93_implementation_defined.md U9). -/
def machineStep (s : State) : Outcome :=
  if s.off.toNat % BLOCK ≠ 0 then .fault .offNotBlockMultiple
  else if s.phase = .idle then portStep s
  else microStep s

/-- The host issues a transaction: it is performed after all those issued before it (20_memory.md R59). -/
def State.issue (s : State) (t : HostTxn) : State := s.setPending (s.pending ++ [t])

/-- The host writes the command word `w` to CMD as the very next transaction, with the sequencer at rest. -/
def State.placeCommand (s : State) (w : Word) : State :=
  { s with phase := .idle, off := 0, pending := .wr 0 w :: s.pending }

/-! ## The host notation of 30_encoding.md R80 and R81 -/

/-- `CMD <mnemonic>` and `CMD MAC <taglen>` (R80). -/
def cmd (i : Instr) : HostTxn := .wr 0 (encode i)

/-- `SETD w0, w1, w2, w3` (R81). -/
def setDTxns (x : Quad) : List HostTxn := [.wr 4 x.w0, .wr 5 x.w1, .wr 6 x.w2, .wr 7 x.w3]

/-- `SETKEY w0, w1, w2, w3` (R81). -/
def setKeyTxns (x : Quad) : List HostTxn := setDTxns x ++ [cmd .ldkey]

/-- `MSG off, <bytes>` (R81). -/
def msgTxns : Nat → List Byte → List HostTxn
  | _, [] => []
  | off, b :: bs => .msgwr off b :: msgTxns (off + 1) bs

/-- `SETMSG <bytes>` (R81). -/
def setMsgTxns (m : List Byte) : List HostTxn := msgTxns 0 m ++ [.wr 2 (BitVec.ofNat 32 m.length)]

/-- `derive_subkeys(key)` on the host interface (R81; 43_host_commands.md R168). -/
def deriveSubkeysTxns (key : Quad) : List HostTxn :=
  setKeyTxns key ++ [cmd .derive, .rd 8, .rd 9, .rd 10, .rd 11, .rd 12, .rd 13, .rd 14, .rd 15]

/-- `compute_tag(key, k1, k2, message, taglen)` on the host interface (R81; 43_host_commands.md R168): the subkeys are
not transmitted. -/
def computeTagTxns (key : Quad) (m : List Byte) (taglen : Nat) : List HostTxn :=
  setKeyTxns key ++ [cmd .derive] ++ setMsgTxns m ++
    [cmd (.mac taglen), .rd 1, .rd 16, .rd 17, .rd 18, .rd 19]

/-- A key held as sixteen bytes is presented as `words(kb)` (43_host_commands.md R169, a host convention). -/
def keyOfBytes (kb : Block) : Quad := words kb

end Sys2Proof.Machine
end

