-- ==== Sys2Proof/Machine/Step.lean ====
section
/-! DEFINITION. The step of the machine and the place where it takes its next command. -/

namespace Sys2Proof.Machine

/-- One step: one host transaction with the command it issues (10_state.md R20), or one micro-operation of a sequencer
that is not idle (42_mac_block_processor.md R145). -/
def step (s : State) : Host.Outcome State Fault Refusal := machineStep s

/-- The state in which the very next step runs the command word of the opcode table given by `nbits` and `w`: the host
writes it to CMD. The core fetches nothing (10_state.md R33; log entry 3). -/
def State.withFetchWord (s : State) (nbits w : Nat) : State := s.placeCommand (tableWord nbits w)

end Sys2Proof.Machine
end

