-- ==== Sys2Proof/Safety.lean ====
section
/-! DEFINITION. What counts as a safe state: the idle invariants of 10_state.md R36, the invariants of a running MAC
command, and the fault a command word calls for by the priority of 60_exceptions.md R183. -/

namespace Sys2Proof.Machine

/-- The conditions on key, subkeys, tag and flags that hold whatever the sequencer does: R36 (b) to (e), and the form
of the message space. -/
structure DataInv (s : State) : Prop where
  /-- R36 (b). -/
  no_key : s.kv = false → s.key = Quad.zero ∧ s.skv = false
  /-- R36 (c): valid subkeys are the subkeys of KEY. -/
  subkeys : s.skv = true → s.kv = true ∧ s.k1 = double s.key ∧ s.k2 = double s.k1
  /-- R36 (c): invalid subkeys are zero. -/
  no_subkeys : s.skv = false → s.k1 = Quad.zero ∧ s.k2 = Quad.zero
  /-- R36 (d): a valid tag. -/
  tag_valid : s.tv = true →
    s.skv = true ∧ 1 ≤ s.tl.val ∧ s.tl.val ≤ 16 ∧ ∀ i, s.tl.val ≤ i → i ≤ 15 → byteOf s.tag i = 0
  /-- R36 (d): no tag. -/
  no_tag : s.tv = false → s.tl = 0 ∧ s.tag = Quad.zero
  /-- R36 (e); that ECODE is in 0..5 is its type. -/
  err_code : s.err = false ↔ s.ecode = .none
  /-- The written bytes are listed in canonical form (the model's own). -/
  msg_form : s.msg.wf = true
  /-- Only offsets of MSG are written (20_memory.md R50). -/
  msg_within : memWithin s.msgCap.toNat s.msg = true

/-- The scratch state at rest, R36 (a), with no TLEN held. -/
structure AtRest (s : State) : Prop where
  phase_idle : s.phase = .idle
  off_zero : s.off = 0
  sel_none : s.sel = .none
  rnd_zero : s.rnd = 0
  v_zero : s.v = Quad.zero
  buf_zero : s.buf = Block.zero
  taglen_zero : s.taglen = 0

/-- The idle invariants (R36): they hold "in every state the host can observe". -/
structure IdleInv (s : State) : Prop where
  data : DataInv s
  rest : AtRest s

/-- What V, BUF, SEL and OFF hold before each micro-operation of an accepted MAC command (42_mac_block_processor.md
R140 to R144), in terms of the functional layer. -/
def scratchInv (s : State) : Prop :=
  match s.phase with
  | .idle => False
  | .init => s.off = 0
  | .absorb => s.v = absorbBlocks s.message s.key (s.off.toNat / 16) ∧ s.off.toNat / 16 ≤ nfull s.mlen.toNat
  | .select => s.v = absorbBlocks s.message s.key (nfull s.mlen.toNat) ∧ s.off.toNat / 16 = nfull s.mlen.toNat
  | .final => s.v = absorbBlocks s.message s.key (nfull s.mlen.toNat) ∧ (s.buf, s.sel) = trail s.message
  | .extract => s.v = macState s.key s.k1 s.k2 s.message

/-- The invariants of a running MAC command. -/
structure BusyInv (s : State) : Prop where
  data : DataInv s
  /-- The command was accepted (42_mac_block_processor.md R139): no fault, key and subkeys valid, message in MSG. -/
  accepted : s.err = false ∧ s.kv = true ∧ s.skv = true ∧ s.mlen ≤ s.msgCap
  /-- The held TLEN is legal. -/
  taglen_legal : 1 ≤ s.taglen.val
  /-- "always a multiple of 16 and OFF <= MLEN" (10_state.md R33). -/
  off_legal : s.off.toNat % 16 = 0 ∧ s.off ≤ s.mlen
  scratch : scratchInv s

/-- The invariant of the machine in every state, between transactions or inside a MAC command. -/
def MachineInv (s : State) : Prop := IdleInv s ∨ BusyInv s

/-- The checks of a MAC command with TLEN = `t` all pass (42_mac_block_processor.md R139) and ERR = 0. -/
structure MacAccepted (s : State) (t : Nat) : Prop where
  no_err : s.err = false
  tlen_legal : 1 ≤ t ∧ t ≤ 16
  key_valid : s.kv = true
  subkeys_valid : s.skv = true
  message_fits : s.mlen ≤ s.msgCap

/-- The next step performs the transaction `x`: the sequencer is idle, OFF is no illegal value, and `x` is the oldest
waiting transaction. -/
structure AtPort (s : State) (x : HostTxn) (rest : List HostTxn) : Prop where
  phase_idle : s.phase = .idle
  off_legal : s.off.toNat % 16 = 0
  head : s.pending = x :: rest

/-- The fault that the command word `w` calls for in the state `s`, by R183 (2) to (6): E_OPCODE, E_TAGLEN, E_NOKEY,
E_NOSUBKEY, E_MLEN, the first that holds. The word is read by the masks of 30_encoding.md R72. -/
def violation (s : State) (w : Word) : Option ECode :=
  if w &&& 0xFFFFFFE0 = 0x50000000 then
    if (w &&& 0x1F).toNat = 0 ∨ 17 ≤ (w &&& 0x1F).toNat then some .tagLen
    else if s.kv = false then some .noKey
    else if s.skv = false then some .noSubkey
    else if s.msgCap < s.mlen then some .mLen
    else none
  else if w = 0x20000000 then if s.kv = false then some .noKey else none
  else if w = 0x00000000 ∨ w = 0x10000000 ∨ w = 0x30000000 ∨ w = 0x40000000 then none
  else some .opcode

end Sys2Proof.Machine
end

