-- ==== Sys2Proof/Certificates/Slice0/Obligations.lean ====
section
/-! DEFINITION. The statements for the provers. "stated" ones formalise a numbered rule of spec/; the others are derived
from the sections they cite. The lists `pending` and `replies`, the field `draw`, the held `taglen` and the field
`msgCap` are the model's (log entries 1, 2, 3 and 5). -/

open Sys2Proof Sys2Proof.Machine

/-! ## Encoding -/

/-- Decoding the word of a well-formed command gives the command back (30_encoding.md R71, R72, R73). -/
def Obligations.DecodeOfEncodeIsTheCommand : Prop :=
  ∀ i : Instr, i.wf = true → decode (encode i) = .ok i

/-- Each command word has one meaning: a word that decodes is the word of the command it decodes to, and that command
is well formed (30_encoding.md R72, R73). -/
def Obligations.EncodeOfDecodeIsTheWord : Prop :=
  ∀ (w : Word) (i : Instr), decode w = .ok i → i.wf = true ∧ encode i = w

/-- 30_encoding.md R72: a word selects a command exactly when `w & mask == match` for its row; MAC takes its TLEN from
bits 4:0. -/
def Obligations.DecodeFollowsMasksAndMatches : Prop :=
  ∀ (w : Word) (i : Instr), decode w = .ok i ↔
    (w &&& 0xFFFFFFFF = 0x00000000 ∧ i = .nop) ∨
    (w &&& 0xFFFFFFFF = 0x10000000 ∧ i = .ldkey) ∨
    (w &&& 0xFFFFFFFF = 0x20000000 ∧ i = .derive) ∨
    (w &&& 0xFFFFFFFF = 0x30000000 ∧ i = .dbl) ∨
    (w &&& 0xFFFFFFFF = 0x40000000 ∧ i = .perm) ∨
    (w &&& 0xFFFFFFE0 = 0x50000000 ∧ i = .mac (w.toNat % 32))

/-- 30_encoding.md R74: the illegal words are those of (a), (b) and (c); the legal ones are 37 different words, the five
fixed ones and the 32 MAC words; an illegal word written to CMD raises Fault(E_OPCODE). -/
def Obligations.IllegalWordsAreTheReservedOnes : Prop :=
  (∀ w : Word, (∃ e, decode w = .error e) ↔
    6 ≤ (w.extractLsb' 28 4).toNat ∨
    ((w.extractLsb' 28 4).toNat ≤ 4 ∧ w.extractLsb' 0 28 ≠ 0) ∨
    ((w.extractLsb' 28 4).toNat = 5 ∧ w.extractLsb' 5 23 ≠ 0)) ∧
  (∃ legal : List Word,
    legal = [0x00000000, 0x10000000, 0x20000000, 0x30000000, 0x40000000] ++
      (List.range 32).map (fun t => 0x50000000 + BitVec.ofNat 32 t) ∧
    legal.Nodup ∧ legal.length = 37 ∧ ∀ w : Word, (∃ i, decode w = .ok i) ↔ w ∈ legal) ∧
  (∀ (w : Word) (e : DecodeError) (s : State), decode w = .error e → s.err = false →
    hostTxn (.wr 0 w) s = .next { s with err := true, ecode := .opcode })

/-- One word of each family, written out from the encodings of 30_encoding.md R72, decodes to its command. -/
def Obligations.WordsOfEveryFamilyDecode : Prop :=
  decode 0b00000000000000000000000000000000 = .ok .nop ∧
  decode 0b00010000000000000000000000000000 = .ok .ldkey ∧
  decode 0b00100000000000000000000000000000 = .ok .derive ∧
  decode 0b00110000000000000000000000000000 = .ok .dbl ∧
  decode 0b01000000000000000000000000000000 = .ok .perm ∧
  decode 0b01010000000000000000000000010000 = .ok (.mac 16) ∧
  decode 0b01010000000000000000000000011111 = .ok (.mac 31)

/-! ## One step -/

/-- With the sequencer idle and WR(0, w) the oldest waiting transaction, a step is the execution of the command that `w`
decodes to, on the state with that transaction taken from the list (43_host_commands.md R162, R163). -/
def Obligations.StepRunsTheDecodedCommand : Prop :=
  ∀ (s : State) (w : Word) (rest : List HostTxn) (i : Instr), AtPort s (.wr 0 w) rest → decode w = .ok i →
    step s = exec i { s with pending := rest }

/-- With the sequencer idle and no transaction waiting a step changes nothing (60_exceptions.md R193 "between commands it
is idle and keeps all state"; that such a step is a step at all is the model's choice, log entry 3). -/
def Obligations.IdleStepKeepsAllState : Prop :=
  ∀ s : State, s.phase = .idle → s.off.toNat % 16 = 0 → s.pending = [] → step s = .next s

/-- RD(idx) changes no state of the core and answers by the table of 43_host_commands.md R161; the answer goes to
`replies` (log entry 3). -/
def Obligations.ReadAnswersByTheIndexTable : Prop :=
  ∀ (s : State) (idx : Nat) (rest : List HostTxn), AtPort s (.rd idx) rest →
    ∃ w, step s = .next { s with pending := rest, replies := s.replies ++ [w] } ∧
      (idx = 0 → w = 0) ∧ (idx = 1 → w = s.status) ∧ (idx = 2 → w = s.mlen) ∧ (idx = 3 → w = 0) ∧
      (idx = 4 → w = s.d.w0) ∧ (idx = 5 → w = s.d.w1) ∧ (idx = 6 → w = s.d.w2) ∧ (idx = 7 → w = s.d.w3) ∧
      (idx = 8 → w = s.k1.w0) ∧ (idx = 9 → w = s.k1.w1) ∧ (idx = 10 → w = s.k1.w2) ∧ (idx = 11 → w = s.k1.w3) ∧
      (idx = 12 → w = s.k2.w0) ∧ (idx = 13 → w = s.k2.w1) ∧ (idx = 14 → w = s.k2.w2) ∧ (idx = 15 → w = s.k2.w3) ∧
      (idx = 16 → w = s.tag.w0) ∧ (idx = 17 → w = s.tag.w1) ∧ (idx = 18 → w = s.tag.w2) ∧ (idx = 19 → w = s.tag.w3) ∧
      (20 ≤ idx → w = 0)

/-- WR(idx, val) on an index other than CMD writes MLEN or one word of D and nothing else; every other index ignores it
(43_host_commands.md R162). -/
def Obligations.WriteStoresByTheIndexTable : Prop :=
  ∀ (s : State) (idx : Nat) (val : Word) (rest : List HostTxn), AtPort s (.wr idx val) rest →
    (idx = 2 → step s = .next { s with pending := rest, mlen := val }) ∧
    (idx = 4 → step s = .next { s with pending := rest, d := ⟨val, s.d.w1, s.d.w2, s.d.w3⟩ }) ∧
    (idx = 5 → step s = .next { s with pending := rest, d := ⟨s.d.w0, val, s.d.w2, s.d.w3⟩ }) ∧
    (idx = 6 → step s = .next { s with pending := rest, d := ⟨s.d.w0, s.d.w1, val, s.d.w3⟩ }) ∧
    (idx = 7 → step s = .next { s with pending := rest, d := ⟨s.d.w0, s.d.w1, s.d.w2, val⟩ }) ∧
    (idx = 1 ∨ idx = 3 ∨ 8 ≤ idx → step s = .next { s with pending := rest })

/-- Reading a register after a write of an index other than CMD (`writeReg`; a write of CMD runs a command instead,
43_host_commands.md R162) gives the written value exactly on MLEN and D; every other register reads as before
(10_state.md R32; 20_memory.md R56). -/
def Obligations.ReadAfterWriteOfARegister : Prop :=
  ∀ (s : State) (i j : Nat) (val : Word),
    (s.writeReg i val).readReg j =
      if j = i ∧ (i = 2 ∨ i = 4 ∨ i = 5 ∨ i = 6 ∨ i = 7) then val else s.readReg j

/-- MSGWR(off, b) writes the byte at `off` when `off < MSGCAP` and nothing else, and nothing at all otherwise
(43_host_commands.md R166). -/
def Obligations.MessageWriteChangesOneByte : Prop :=
  ∀ (s : State) (off : Nat) (b : Byte) (rest : List HostTxn), AtPort s (.msgwr off b) rest →
    ∃ m, step s = .next { s with pending := rest, msg := m } ∧
      (∀ a, State.msgByte { s with pending := rest, msg := m } a =
        if a = off ∧ off < s.msgCap.toNat then b else s.msgByte a) ∧
      (s.msgCap.toNat ≤ off → m = s.msg)

/-- RESET puts every register, flag and sequencer field in its reset value and leaves no message byte written
(43_host_commands.md R167; 10_state.md R40, R41). That MSGCAP and the host's lists stay and that the unspecified bytes
are drawn anew under the next number is the model's choice (log entries 1, 2, 3). -/
def Obligations.ResetTransactionRestoresResetValues : Prop :=
  ∀ (s : State) (rest : List HostTxn), AtPort s .reset rest →
    step s = .next { State.reset with
      msgCap := s.msgCap, draw := s.draw + 1, pending := rest, replies := s.replies }

/-- While ERR = 1 every write to CMD is ignored, and RD, WR to MLEN and D and MSGWR keep working (60_exceptions.md
R185). -/
def Obligations.OnlyCommandsAreIgnoredAfterAFault : Prop :=
  ∀ (s : State) (rest : List HostTxn), s.err = true →
    (∀ w, AtPort s (.wr 0 w) rest → step s = .next { s with pending := rest }) ∧
    (∀ idx, AtPort s (.rd idx) rest →
      step s = .next { s with pending := rest, replies := s.replies ++ [s.readReg idx] }) ∧
    (∀ val, AtPort s (.wr 2 val) rest → ∃ t, step s = .next t ∧ t.mlen = val) ∧
    (∀ idx val, AtPort s (.wr idx val) rest → 4 ≤ idx → idx ≤ 7 →
      ∃ t, step s = .next t ∧ t.readReg idx = val) ∧
    (∀ off b, AtPort s (.msgwr off b) rest → off < s.msgCap.toNat →
      ∃ t, step s = .next t ∧ t.msgByte off = b)

/-- "No host transaction is accepted while PHASE != IDLE" (42_mac_block_processor.md R145): it waits, and no answer is
given. -/
def Obligations.TransactionsWaitForTheSequencer : Prop :=
  ∀ s t : State, s.phase ≠ .idle → step s = .next t → t.pending = s.pending ∧ t.replies = s.replies

/-- An OFF that is not a multiple of 16 is stuck (93_implementation_defined.md U9, 10_state.md R33; log entry 6), and that
is the only state in which `step` stops so. -/
def Obligations.IllegalOffIsStuck : Prop :=
  ∀ s : State, step s = .fault .offNotBlockMultiple ↔ s.off.toNat % 16 ≠ 0

/-! ## The commands -/

/-- 43_host_commands.md R164: NOP changes no state. -/
def Obligations.NopChangesNothing : Prop :=
  (∀ s : State, exec .nop s = .next s) ∧ decode 0x00000000 = .ok .nop

/-- 43_host_commands.md R165: LDKEY loads the key from D and withdraws the subkeys and the tag; with ERR = 1 it is
ignored. Nothing else changes. -/
def Obligations.LdkeyLoadsTheKey : Prop :=
  (∀ s : State, s.err = false → exec .ldkey s = .next { s with
    key := s.d, kv := true, skv := false, k1 := ⟨0, 0, 0, 0⟩, k2 := ⟨0, 0, 0, 0⟩,
    tv := false, tl := 0, tag := ⟨0, 0, 0, 0⟩ }) ∧
  (∀ s : State, s.err = true → exec .ldkey s = .next s) ∧
  decode 0x10000000 = .ok .ldkey

/-- 40_field_doubling.md R98: with a key loaded, DERIVE writes both subkeys and SKV; without one it raises
Fault(E_NOKEY); with ERR = 1 it is ignored. Nothing else changes. -/
def Obligations.DeriveWritesBothSubkeys : Prop :=
  (∀ s : State, s.err = false → s.kv = true → exec .derive s = .next { s with
    k1 := double s.key, k2 := double (double s.key), skv := true }) ∧
  (∀ s : State, s.err = false → s.kv = false → exec .derive s = .next { s with err := true, ecode := .noKey }) ∧
  (∀ s : State, s.err = true → exec .derive s = .next s) ∧
  decode 0x20000000 = .ok .derive

/-- 40_field_doubling.md R97: DBL doubles D, whatever the flags but ERR. Nothing else changes. -/
def Obligations.DblDoublesTheOperand : Prop :=
  (∀ s : State, s.err = false → exec .dbl s = .next { s with d := double s.d }) ∧
  (∀ s : State, s.err = true → exec .dbl s = .next s) ∧
  decode 0x30000000 = .ok .dbl

/-- 41_permutation.md R117: PERM permutes D, whatever the flags but ERR. Nothing else changes. -/
def Obligations.PermPermutesTheOperand : Prop :=
  (∀ s : State, s.err = false → exec .perm s = .next { s with d := permute s.d }) ∧
  (∀ s : State, s.err = true → exec .perm s = .next s) ∧
  decode 0x40000000 = .ok .perm

/-- 42_mac_block_processor.md R139: an accepted MAC command delivers the `t` bytes of `mac` in TAG with the other tag
bytes zero, sets TL and TV, and leaves the scratch state idle; else the first of the four faults; with ERR = 1 it is
ignored. Nothing else changes. What the held TLEN is afterwards is not said. -/
def Obligations.MacDeliversTheTag : Prop :=
  (∀ (s : State) (t : Nat), MacAccepted s t →
    ∃ (bs : List Byte) (n u : TagLen),
      mac s.key s.k1 s.k2 ((List.range s.mlen.toNat).map s.msgByte) t = some bs ∧ bs.length = t ∧ n.val = t ∧
      exec (.mac t) s = .next { s with
        tag := words (Block.ofFn fun i => if i < t then bs.getD i 0 else 0), tl := n, tv := true,
        v := ⟨0, 0, 0, 0⟩, buf := Block.ofFn fun _ => 0, off := 0, sel := .none, rnd := 0, phase := .idle,
        taglen := u }) ∧
  (∀ (s : State) (t : Nat), s.err = false →
    (t = 0 ∨ 17 ≤ t → exec (.mac t) s = .next { s with err := true, ecode := .tagLen }) ∧
    (1 ≤ t ∧ t ≤ 16 → s.kv = false → exec (.mac t) s = .next { s with err := true, ecode := .noKey }) ∧
    (1 ≤ t ∧ t ≤ 16 → s.kv = true → s.skv = false →
      exec (.mac t) s = .next { s with err := true, ecode := .noSubkey }) ∧
    (1 ≤ t ∧ t ≤ 16 → s.kv = true → s.skv = true → s.msgCap < s.mlen →
      exec (.mac t) s = .next { s with err := true, ecode := .mLen })) ∧
  (∀ (s : State) (t : Nat), s.err = true → exec (.mac t) s = .next s) ∧
  (∀ t : Nat, t < 32 → decode (0x50000000 ||| BitVec.ofNat 32 t) = .ok (.mac t))

/-- What each command leaves unchanged when it answers a next state (10_state.md R21 to R27, R30, R31): all but the
registers and flags named for it; no command changes MLEN, a byte of MSG, MSGCAP or the host's lists. -/
def Obligations.CommandFrame : Prop :=
  ∀ (i : Instr) (s t : State), exec i s = .next t →
    t.mlen = s.mlen ∧ t.msg = s.msg ∧ (∀ a, t.msgByte a = s.msgByte a) ∧ t.draw = s.draw ∧ t.msgCap = s.msgCap ∧
    t.pending = s.pending ∧ t.replies = s.replies ∧
    (i ≠ .ldkey → t.key = s.key ∧ t.kv = s.kv) ∧
    (i ≠ .ldkey → i ≠ .derive → t.k1 = s.k1 ∧ t.k2 = s.k2 ∧ t.skv = s.skv) ∧
    (i ≠ .dbl → i ≠ .perm → t.d = s.d) ∧
    ((∀ n, i ≠ .mac n) → t.v = s.v ∧ t.buf = s.buf ∧ t.phase = s.phase ∧ t.off = s.off ∧ t.sel = s.sel ∧
      t.rnd = s.rnd ∧ t.taglen = s.taglen) ∧
    (i ≠ .ldkey → (∀ n, i ≠ .mac n) → t.tag = s.tag ∧ t.tv = s.tv ∧ t.tl = s.tl) ∧
    (i ≠ .derive → (∀ n, i ≠ .mac n) → t.err = s.err ∧ t.ecode = s.ecode)

/-- 60_exceptions.md R182: which command and which transaction can raise what. -/
def Obligations.FaultsByCommand : Prop :=
  ∀ s : State, s.err = false →
    (∀ (i : Instr) (t : State), exec i s = .next t → t.err = true →
      (i = .derive ∧ t.ecode = .noKey) ∨
      (∃ n, i = .mac n ∧
        (t.ecode = .tagLen ∨ t.ecode = .noKey ∨ t.ecode = .noSubkey ∨ t.ecode = .mLen))) ∧
    (∀ (w : Word) (e : DecodeError) (t : State), decode w = .error e → commandWord w s = .next t →
      t.err = true ∧ t.ecode = .opcode) ∧
    (∀ (x : HostTxn) (t : State), (∀ w, x ≠ .wr 0 w) → hostTxn x s = .next t → t.err = false)

/-- 60_exceptions.md R183: a command word is examined in the fixed order and the first condition that holds is the one
reported; with ERR = 1 the word is ignored; with no violation no fault is recorded. -/
def Obligations.FirstViolationIsReported : Prop :=
  ∀ (s : State) (w : Word),
    (s.err = true → commandWord w s = .next s) ∧
    (s.err = false → ∀ c, violation s w = some c → commandWord w s = .next { s with err := true, ecode := c }) ∧
    (s.err = false → violation s w = none →
      ∃ t, commandWord w s = .next t ∧ t.err = false ∧ t.ecode = s.ecode)

/-- A DERIVE repeated with the same key changes nothing more (40_field_doubling.md R98, R96). -/
def Obligations.DeriveIsIdempotent : Prop :=
  ∀ s t : State, s.kv = true → exec .derive s = .next t → exec .derive t = .next t

/-- An accepted MAC command can be repeated with the same result (42_mac_block_processor.md R139; that the whole state is
the same rests on the held TLEN ending with its command, log entry 5). -/
def Obligations.MacIsRepeatable : Prop :=
  ∀ (s u : State) (t : Nat), MacAccepted s t → exec (.mac t) s = .next u → exec (.mac t) u = .next u

/-- After LDKEY a MAC command without a DERIVE between them raises Fault(E_NOSUBKEY) instead of using stale subkeys
(70_reset_and_hazards.md R213). -/
def Obligations.SubkeysFollowTheKey : Prop :=
  ∀ (s u : State) (t : Nat), s.err = false → 1 ≤ t → t ≤ 16 → exec .ldkey s = .next u →
    exec (.mac t) u = .next { u with err := true, ecode := .noSubkey }

/-! ## Who writes what, over a step -/

/-- The transactions that can change KEY, K1 and K2, D, TAG and MLEN (10_state.md R21, R22, R24, R26, R27). -/
def Obligations.RegistersChangeOnlyByTheirWriters : Prop :=
  ∀ s t : State, s.phase = .idle → step s = .next t →
    (t.key ≠ s.key → s.pending.head? = some (.wr 0 0x10000000) ∨ s.pending.head? = some .reset) ∧
    (t.k1 ≠ s.k1 ∨ t.k2 ≠ s.k2 → s.pending.head? = some (.wr 0 0x10000000) ∨
      s.pending.head? = some (.wr 0 0x20000000) ∨ s.pending.head? = some .reset) ∧
    (t.d ≠ s.d → s.pending.head? = some (.wr 0 0x30000000) ∨ s.pending.head? = some (.wr 0 0x40000000) ∨
      (∃ idx val, 4 ≤ idx ∧ idx ≤ 7 ∧ s.pending.head? = some (.wr idx val)) ∨ s.pending.head? = some .reset) ∧
    (t.tag ≠ s.tag → s.pending.head? = some (.wr 0 0x10000000) ∨
      (∃ n, n < 32 ∧ s.pending.head? = some (.wr 0 (0x50000000 ||| BitVec.ofNat 32 n))) ∨
      s.pending.head? = some .reset) ∧
    (t.mlen ≠ s.mlen → (∃ val, s.pending.head? = some (.wr 2 val)) ∨ s.pending.head? = some .reset)

/-- A message byte, written or not, keeps its value until the host writes that byte or resets the core (10_state.md R31,
R41). It holds for every value of the free bytes. -/
def Obligations.MessageBytesChangeOnlyByTheHost : Prop :=
  ∀ (s t : State) (a : Nat), step s = .next t →
    s.pending.head? ≠ some .reset → (∀ b, s.pending.head? ≠ some (.msgwr a b)) → t.msgByte a = s.msgByte a

/-- A fault is final until RESET: ERR, ECODE and everything a command could change stay (60_exceptions.md R185, R186). -/
def Obligations.FaultIsFinalUntilReset : Prop :=
  ∀ s t : State, s.err = true → s.phase = .idle → s.pending.head? ≠ some .reset → step s = .next t →
    t.err = true ∧ t.ecode = s.ecode ∧ t.key = s.key ∧ t.k1 = s.k1 ∧ t.k2 = s.k2 ∧ t.tag = s.tag ∧
    t.kv = s.kv ∧ t.skv = s.skv ∧ t.tv = s.tv ∧ t.tl = s.tl

/-! ## Reset and invariants -/

/-- 10_state.md R40: every register, flag and sequencer field is zero and STATUS reads 0; the zero key is not usable,
DERIVE and MAC fault with E_NOKEY. -/
def Obligations.ResetValues : Prop :=
  State.reset.key = ⟨0, 0, 0, 0⟩ ∧ State.reset.k1 = ⟨0, 0, 0, 0⟩ ∧ State.reset.k2 = ⟨0, 0, 0, 0⟩ ∧
  State.reset.v = ⟨0, 0, 0, 0⟩ ∧ State.reset.d = ⟨0, 0, 0, 0⟩ ∧ State.reset.tag = ⟨0, 0, 0, 0⟩ ∧
  State.reset.buf = Block.ofFn (fun _ => 0) ∧ State.reset.mlen = 0 ∧
  State.reset.kv = false ∧ State.reset.skv = false ∧ State.reset.tv = false ∧ State.reset.err = false ∧
  ecodeCode State.reset.ecode = 0 ∧ State.reset.tl = 0 ∧
  phaseCode State.reset.phase = 0 ∧ State.reset.off = 0 ∧ selCode State.reset.sel = 0 ∧ State.reset.rnd = 0 ∧
  State.reset.status = 0x00000000 ∧
  exec .derive State.reset = .next { State.reset with err := true, ecode := .noKey } ∧
  (∀ t, 1 ≤ t → t ≤ 16 → exec (.mac t) State.reset = .next { State.reset with err := true, ecode := .noKey })

/-- The reset state satisfies the idle invariants (10_state.md R36, R40). -/
def Obligations.ResetSatisfiesTheIdleInvariants : Prop := IdleInv State.reset

/-- The idle invariants of 10_state.md R36 are kept by every step: a command is one atomic transition (R20), so they hold
in every state the host can observe. -/
def Obligations.StepKeepsTheIdleInvariants : Prop :=
  ∀ s t : State, IdleInv s → step s = .next t → IdleInv t

/-- The invariants of an idle core or of a running MAC command are kept by every step, a micro-operation included
(10_state.md R33, R36; 42_mac_block_processor.md R140 to R144). -/
def Obligations.StepKeepsTheMachineInvariant : Prop :=
  ∀ s t : State, MachineInv s → step s = .next t → MachineInv t

/-- From a state with the invariant a step always answers a next state: "nothing it can do leaves the core without a
defined next state" (43_host_commands.md R170), and no micro-operation stops. -/
def Obligations.InvariantStatesNeverStop : Prop :=
  ∀ s : State, MachineInv s → ∃ t, step s = .next t

/-- The fields of STATUS stand at the bits of the table of 10_state.md R29, and a write of STATUS is ignored. -/
def Obligations.StatusShowsTheFlags : Prop :=
  ∀ s : State,
    s.status.extractLsb' 0 1 = BitVec.ofBool s.kv ∧ s.status.extractLsb' 1 1 = BitVec.ofBool s.skv ∧
    s.status.extractLsb' 2 1 = BitVec.ofBool s.tv ∧ s.status.extractLsb' 3 1 = BitVec.ofBool s.err ∧
    s.status.extractLsb' 4 4 = ecodeCode s.ecode ∧ (s.status.extractLsb' 8 5).toNat = s.tl.val ∧
    s.status.extractLsb' 13 19 = 0 ∧ ∀ val, s.writeReg 1 val = s

/-! ## The units -/

/-- 40_field_doubling.md R92: the integer form of `double`. -/
def Obligations.DoubleIntegerForm : Prop :=
  ∀ x : Quad, val128 (double x) =
    ((2 * val128 x) % 2 ^ 128) ^^^ (if val128 x ≥ 2 ^ 127 then 0x87 else 0)

/-- 40_field_doubling.md R93: `double` is linear, and doubles zero to zero. -/
def Obligations.DoubleIsLinear : Prop :=
  (∀ a b : Quad, (double a).xor (double b) = double (a.xor b)) ∧ double ⟨0, 0, 0, 0⟩ = ⟨0, 0, 0, 0⟩

/-- 40_field_doubling.md R95: the inverse given there undoes `double` on both sides. -/
def Obligations.DoubleHasAnInverse : Prop :=
  (∀ x : Quad, halve (double x) = x) ∧ (∀ y : Quad, double (halve y) = y)

/-- 41_permutation.md R116: the inverse round undoes the round on both sides, and applied eight times it undoes
`permute` on both sides. -/
def Obligations.PermutationHasAnInverse : Prop :=
  (∀ x : Quad, roundInv (arxRound x) = x) ∧ (∀ x : Quad, arxRound (roundInv x) = x) ∧
  (∀ x : Quad, permuteInv (permute x) = x) ∧ (∀ x : Quad, permute (permuteInv x) = x)

/-- 41_permutation.md R115: the all-zero state is a fixed point. -/
def Obligations.ZeroStateIsAFixedPoint : Prop :=
  arxRound ⟨0, 0, 0, 0⟩ = ⟨0, 0, 0, 0⟩ ∧ permute ⟨0, 0, 0, 0⟩ = ⟨0, 0, 0, 0⟩

/-- 41_permutation.md R118: RND is 0 when a `permute` starts, is incremented after each round, and is 0 again after the
eighth; the unit's words are then permuted, and inside a MAC command nothing but V and RND changes. -/
def Obligations.RoundCounterRunsToZero : Prop :=
  (∀ (x : Quad) (k : Nat), k < 8 → (permTicks k ⟨0, x⟩).rnd.val = k) ∧
  (∀ x : Quad, permRun x = ⟨0, permute x⟩) ∧
  (∀ s : State, s.permuteV = { s with v := permute s.v, rnd := 0 })

/-- 00_scope.md R10: `words` and `bytes` are inverse, and byte `i` is bits `8i+7 : 8i` of the 128-bit value. -/
def Obligations.BytesAndWordsAreInverse : Prop :=
  (∀ x : Quad, words (bytes x) = x) ∧ (∀ b : Block, bytes (words b) = b) ∧
  (∀ (x : Quad) (i : Nat) (h : i < 16), ((bytes x)[i]'h).toNat = val128 x / 2 ^ (8 * i) % 256)

/-- The absorbed blocks are the message's own bytes: block `j < nfull(mlen)` is `message[16j .. 16j+15]`, whole
(42_mac_block_processor.md R132; 30_encoding.md R76). -/
def Obligations.AbsorbedBlocksAreWhole : Prop :=
  ∀ (m : List Byte) (j i : Nat) (h : i < 16), j < nfull m.length →
    m[16 * j + i]? = some ((blockAt m j)[i]'h)

/-- 42_mac_block_processor.md R133: the trailing block byte by byte, and the subkey selected for it; a 16-byte message
that ends in the marker byte has the trailing block of the 15-byte message without it, with the other subkey. -/
def Obligations.TrailingBlockIsTakenOrPadded : Prop :=
  ∀ (m : List Byte) (o r : Nat), o = 16 * nfull m.length → r = m.length - o →
    (m.length ≠ 0 ∧ m.length % 16 = 0 →
      (trail m).2 = .k1 ∧ ∀ (i : Nat) (h : i < 16), m[o + i]? = some ((trail m).1[i]'h)) ∧
    (m.length = 0 ∨ m.length % 16 ≠ 0 →
      (trail m).2 = .k2 ∧ r ≤ 15 ∧ r = m.length % 16 ∧
      ∀ (i : Nat) (h : i < 16),
        (i < r → m[o + i]? = some ((trail m).1[i]'h)) ∧
        (i = r → (trail m).1[i]'h = 0x01) ∧
        (r < i → (trail m).1[i]'h = 0x00)) ∧
    (m.length = 15 →
      (trail (m ++ [0x01])).1 = (trail m).1 ∧ (trail (m ++ [0x01])).2 = .k1 ∧ (trail m).2 = .k2)

/-- The tag of the empty message is `bytes(permute(K ^ (1,0,0,0) ^ K2) ^ K2)`, whatever K1 is (42_mac_block_processor.md
R138 (a)). -/
def Obligations.EmptyMessageTag : Prop :=
  ∀ key k1 k2 : Quad, mac key k1 k2 [] 16 =
    some (bytes ((permute ((key.xor ⟨1, 0, 0, 0⟩).xor k2)).xor k2)).toList

/-- Prefix stability: the tag of length `n` is the first `n` bytes of the tag of length 16; outside 1..16 there is no tag
(42_mac_block_processor.md R138 (c), R136). -/
def Obligations.TagPrefixStability : Prop :=
  ∀ (key k1 k2 : Quad) (m : List Byte),
    ∃ full, mac key k1 k2 m 16 = some full ∧ full.length = 16 ∧
      ∀ n, (1 ≤ n ∧ n ≤ 16 → mac key k1 k2 m n = some (full.take n)) ∧
        (n = 0 ∨ 17 ≤ n → mac key k1 k2 m n = none)

/-! ## The sequencer -/

/-- 42_mac_block_processor.md R140: U_INIT. -/
def Obligations.InitMicroOperation : Prop :=
  ∀ s : State, s.phase = .init → s.off.toNat % 16 = 0 →
    step s = .next { s with v := s.key, off := 0, sel := .none, phase := .absorb }

/-- 42_mac_block_processor.md R141: U_ABSORB absorbs one block while more than 16 bytes are unconsumed, else moves to
SELECT. -/
def Obligations.AbsorbMicroOperation : Prop :=
  ∀ s : State, s.phase = .absorb → s.off.toNat % 16 = 0 → s.off ≤ s.mlen → s.mlen ≤ s.msgCap →
    (s.mlen.toNat - s.off.toNat > 16 → step s = .next { s with
      v := permute (s.v.xor (words (Block.ofFn fun i => s.msgByte (s.off.toNat + i)))),
      off := s.off + 16, rnd := 0 }) ∧
    (s.mlen.toNat - s.off.toNat ≤ 16 → step s = .next { s with phase := .select })

/-- 42_mac_block_processor.md R142: U_SELECT takes the last 16 bytes as they are with K1, or pads the tail with K2. -/
def Obligations.SelectMicroOperation : Prop :=
  ∀ (s : State) (r : Nat), s.phase = .select → s.off.toNat % 16 = 0 → s.off ≤ s.mlen → s.mlen ≤ s.msgCap →
    r = s.mlen.toNat - s.off.toNat →
    (r = 16 → step s = .next { s with
      buf := Block.ofFn fun i => s.msgByte (s.off.toNat + i), sel := .k1, phase := .final }) ∧
    (r < 16 → step s = .next { s with
      buf := Block.ofFn fun i => if i < r then s.msgByte (s.off.toNat + i) else if i = r then 0x01 else 0x00,
      sel := .k2, phase := .final })

/-- 42_mac_block_processor.md R143: U_FINAL, with K1 when SEL is 1 and K2 when SEL is 2. -/
def Obligations.FinalMicroOperation : Prop :=
  ∀ (s : State) (l : Quad), s.phase = .final → s.off.toNat % 16 = 0 →
    (s.sel = .k1 ∧ l = s.k1) ∨ (s.sel = .k2 ∧ l = s.k2) →
    step s = .next { s with
      v := (permute ((s.v.xor (words s.buf)).xor l)).xor l, rnd := 0, phase := .extract }

/-- 42_mac_block_processor.md R144: U_EXTRACT writes the sixteen tag bytes, TL and TV, and returns the scratch state to
idle. What the held TLEN is afterwards is not said. -/
def Obligations.ExtractMicroOperation : Prop :=
  ∀ s : State, s.phase = .extract → s.off.toNat % 16 = 0 →
    ∃ u : TagLen, step s = .next { s with
      tag := words (Block.ofFn fun i => if i < s.taglen.val then (bytes s.v).toList.getD i 0 else 0x00),
      tl := s.taglen, tv := true,
      v := ⟨0, 0, 0, 0⟩, buf := Block.ofFn fun _ => 0, off := 0, sel := .none, rnd := 0, phase := .idle,
      taglen := u }

/-- 42_mac_block_processor.md R147: the micro-operations of an accepted MAC command, run one a step from INIT with its
TLEN held (log entry 5), end in exactly the state of the MAC command. -/
def Obligations.SmallStepsAgreeWithTheCommand : Prop :=
  ∀ (s : State) (t : Nat) (n : TagLen), MacAccepted s t → n.val = t → s.off.toNat % 16 = 0 →
    Host.Core.run Sys2Proof.core (nfull s.mlen.toNat + 5) { s with phase := .init, taglen := n } = exec (.mac t) s

/-- A MAC command takes exactly `nfull(MLEN) + 5` micro-operations: the sequencer is idle after that many and not before
(42_mac_block_processor.md R148). -/
def Obligations.SequencerStepCount : Prop :=
  ∀ (s : State) (t : Nat) (n : TagLen) (k : Nat), MacAccepted s t → n.val = t → s.off.toNat % 16 = 0 →
    k ≤ nfull s.mlen.toNat + 5 →
    ∃ u : State, Host.Core.run Sys2Proof.core k { s with phase := .init, taglen := n } = .next u ∧
      (u.phase = .idle ↔ k = nfull s.mlen.toNat + 5)

/-! ## What a tag depends on, and the host's use of the core -/

/-- The core reads no byte at an offset >= MLEN (20_memory.md R55): with other bytes there, a MAC command does the
same. -/
def Obligations.BytesBeyondTheMessageAreNotRead : Prop :=
  ∀ (s u : State) (m : Memory) (t : Nat), (∀ a, a < s.mlen.toNat → State.msgByte { s with msg := m } a = s.msgByte a) →
    exec (.mac t) s = .next u → exec (.mac t) { s with msg := m } = .next { u with msg := m }

/-- "Tag is a deterministic function of (Key, Message, taglen) only" (42_mac_block_processor.md R130): two idle cores
with the same key and the same message deliver the same tag, whatever else differs. -/
def Obligations.TagDependsOnKeyMessageAndLength : Prop :=
  ∀ (s s' u u' : State) (t : Nat), IdleInv s → IdleInv s' → MacAccepted s t → MacAccepted s' t →
    s.key = s'.key → s.mlen = s'.mlen → (∀ a, a < s.mlen.toNat → s.msgByte a = s'.msgByte a) →
    exec (.mac t) s = .next u → exec (.mac t) s' = .next u' → u.tag = u'.tag ∧ u.tl = u'.tl

/-- `derive_subkeys` on the host interface (43_host_commands.md R168): the eight words read are `double(key)` and
`double(double(key))`. The answers stand in `replies` (log entry 3). -/
def Obligations.DeriveSubkeysOnTheHostInterface : Prop :=
  ∀ (s : State) (key : Quad) (rest : List HostTxn), IdleInv s → s.err = false →
    s.pending = deriveSubkeysTxns key ++ rest →
    ∃ u : State, Host.Core.run Sys2Proof.core (deriveSubkeysTxns key).length s = .next u ∧
      u.pending = rest ∧ u.err = false ∧ u.skv = true ∧
      u.replies = s.replies ++
        [(double key).w0, (double key).w1, (double key).w2, (double key).w3,
         (double (double key)).w0, (double (double key)).w1, (double (double key)).w2, (double (double key)).w3]

/-- `compute_tag` on the host interface (43_host_commands.md R168): the first `taglen` bytes of the TAG words read equal
`mac(key, double(key), double(double(key)), message, taglen)`, and STATUS shows ERR = 0 and TV = 1. The answers stand in
`replies` (log entry 3). -/
def Obligations.ComputeTagOnTheHostInterface : Prop :=
  ∀ (s : State) (key : Quad) (m : List Byte) (t : Nat) (rest : List HostTxn), IdleInv s → s.err = false →
    m.length ≤ s.msgCap.toNat → 1 ≤ t → t ≤ 16 → s.pending = computeTagTxns key m t ++ rest →
    ∃ (u : State) (st a b c d : Word) (bs : List Byte),
      Host.Core.run Sys2Proof.core (computeTagTxns key m t).length s = .next u ∧
      u.pending = rest ∧ u.replies = s.replies ++ [st, a, b, c, d] ∧
      st = u.status ∧ u.err = false ∧ u.tv = true ∧
      mac key (double key) (double (double key)) m t = some bs ∧
      (bytes ⟨a, b, c, d⟩).toList.take t = bs
end

