-- ==== Sys2Proof/Laws/State.lean ====
section
/-! SUPPORT. What each named update of the state leaves in each field, so that no later proof unfolds a record update. -/

namespace Sys2Proof.Machine

/-! ## Taking a fault (60_exceptions.md R184) -/

section

variable (s : State) (c : ECode)

@[simp] theorem State.raise_key : (s.raise c).key = s.key := rfl
@[simp] theorem State.raise_k1 : (s.raise c).k1 = s.k1 := rfl
@[simp] theorem State.raise_k2 : (s.raise c).k2 = s.k2 := rfl
@[simp] theorem State.raise_v : (s.raise c).v = s.v := rfl
@[simp] theorem State.raise_d : (s.raise c).d = s.d := rfl
@[simp] theorem State.raise_buf : (s.raise c).buf = s.buf := rfl
@[simp] theorem State.raise_tag : (s.raise c).tag = s.tag := rfl
@[simp] theorem State.raise_mlen : (s.raise c).mlen = s.mlen := rfl
@[simp] theorem State.raise_kv : (s.raise c).kv = s.kv := rfl
@[simp] theorem State.raise_skv : (s.raise c).skv = s.skv := rfl
@[simp] theorem State.raise_tv : (s.raise c).tv = s.tv := rfl
@[simp] theorem State.raise_err : (s.raise c).err = true := rfl
@[simp] theorem State.raise_ecode : (s.raise c).ecode = c := rfl
@[simp] theorem State.raise_tl : (s.raise c).tl = s.tl := rfl
@[simp] theorem State.raise_phase : (s.raise c).phase = s.phase := rfl
@[simp] theorem State.raise_off : (s.raise c).off = s.off := rfl
@[simp] theorem State.raise_sel : (s.raise c).sel = s.sel := rfl
@[simp] theorem State.raise_rnd : (s.raise c).rnd = s.rnd := rfl
@[simp] theorem State.raise_msg : (s.raise c).msg = s.msg := rfl
@[simp] theorem State.raise_taglen : (s.raise c).taglen = s.taglen := rfl
@[simp] theorem State.raise_msgCap : (s.raise c).msgCap = s.msgCap := rfl
@[simp] theorem State.raise_draw : (s.raise c).draw = s.draw := rfl
@[simp] theorem State.raise_pending : (s.raise c).pending = s.pending := rfl
@[simp] theorem State.raise_replies : (s.raise c).replies = s.replies := rfl

end

/-! ## A write of D -/

section

variable (s : State) (x : Quad)

@[simp] theorem State.setD_key : (s.setD x).key = s.key := rfl
@[simp] theorem State.setD_k1 : (s.setD x).k1 = s.k1 := rfl
@[simp] theorem State.setD_k2 : (s.setD x).k2 = s.k2 := rfl
@[simp] theorem State.setD_v : (s.setD x).v = s.v := rfl
@[simp] theorem State.setD_d : (s.setD x).d = x := rfl
@[simp] theorem State.setD_buf : (s.setD x).buf = s.buf := rfl
@[simp] theorem State.setD_tag : (s.setD x).tag = s.tag := rfl
@[simp] theorem State.setD_mlen : (s.setD x).mlen = s.mlen := rfl
@[simp] theorem State.setD_kv : (s.setD x).kv = s.kv := rfl
@[simp] theorem State.setD_skv : (s.setD x).skv = s.skv := rfl
@[simp] theorem State.setD_tv : (s.setD x).tv = s.tv := rfl
@[simp] theorem State.setD_err : (s.setD x).err = s.err := rfl
@[simp] theorem State.setD_ecode : (s.setD x).ecode = s.ecode := rfl
@[simp] theorem State.setD_tl : (s.setD x).tl = s.tl := rfl
@[simp] theorem State.setD_phase : (s.setD x).phase = s.phase := rfl
@[simp] theorem State.setD_off : (s.setD x).off = s.off := rfl
@[simp] theorem State.setD_sel : (s.setD x).sel = s.sel := rfl
@[simp] theorem State.setD_rnd : (s.setD x).rnd = s.rnd := rfl
@[simp] theorem State.setD_msg : (s.setD x).msg = s.msg := rfl
@[simp] theorem State.setD_taglen : (s.setD x).taglen = s.taglen := rfl
@[simp] theorem State.setD_msgCap : (s.setD x).msgCap = s.msgCap := rfl
@[simp] theorem State.setD_draw : (s.setD x).draw = s.draw := rfl
@[simp] theorem State.setD_pending : (s.setD x).pending = s.pending := rfl
@[simp] theorem State.setD_replies : (s.setD x).replies = s.replies := rfl

end

/-! ## DERIVE's write of the subkeys -/

section

variable (s : State) (a b : Quad)

@[simp] theorem State.setSubkeys_key : (s.setSubkeys a b).key = s.key := rfl
@[simp] theorem State.setSubkeys_k1 : (s.setSubkeys a b).k1 = a := rfl
@[simp] theorem State.setSubkeys_k2 : (s.setSubkeys a b).k2 = b := rfl
@[simp] theorem State.setSubkeys_v : (s.setSubkeys a b).v = s.v := rfl
@[simp] theorem State.setSubkeys_d : (s.setSubkeys a b).d = s.d := rfl
@[simp] theorem State.setSubkeys_buf : (s.setSubkeys a b).buf = s.buf := rfl
@[simp] theorem State.setSubkeys_tag : (s.setSubkeys a b).tag = s.tag := rfl
@[simp] theorem State.setSubkeys_mlen : (s.setSubkeys a b).mlen = s.mlen := rfl
@[simp] theorem State.setSubkeys_kv : (s.setSubkeys a b).kv = s.kv := rfl
@[simp] theorem State.setSubkeys_skv : (s.setSubkeys a b).skv = true := rfl
@[simp] theorem State.setSubkeys_tv : (s.setSubkeys a b).tv = s.tv := rfl
@[simp] theorem State.setSubkeys_err : (s.setSubkeys a b).err = s.err := rfl
@[simp] theorem State.setSubkeys_ecode : (s.setSubkeys a b).ecode = s.ecode := rfl
@[simp] theorem State.setSubkeys_tl : (s.setSubkeys a b).tl = s.tl := rfl
@[simp] theorem State.setSubkeys_phase : (s.setSubkeys a b).phase = s.phase := rfl
@[simp] theorem State.setSubkeys_off : (s.setSubkeys a b).off = s.off := rfl
@[simp] theorem State.setSubkeys_sel : (s.setSubkeys a b).sel = s.sel := rfl
@[simp] theorem State.setSubkeys_rnd : (s.setSubkeys a b).rnd = s.rnd := rfl
@[simp] theorem State.setSubkeys_msg : (s.setSubkeys a b).msg = s.msg := rfl
@[simp] theorem State.setSubkeys_taglen : (s.setSubkeys a b).taglen = s.taglen := rfl
@[simp] theorem State.setSubkeys_msgCap : (s.setSubkeys a b).msgCap = s.msgCap := rfl
@[simp] theorem State.setSubkeys_draw : (s.setSubkeys a b).draw = s.draw := rfl
@[simp] theorem State.setSubkeys_pending : (s.setSubkeys a b).pending = s.pending := rfl
@[simp] theorem State.setSubkeys_replies : (s.setSubkeys a b).replies = s.replies := rfl

end

/-! ## LDKEY's write of the key -/

section

variable (s : State) (x : Quad)

@[simp] theorem State.setKey_key : (s.setKey x).key = x := rfl
@[simp] theorem State.setKey_k1 : (s.setKey x).k1 = Quad.zero := rfl
@[simp] theorem State.setKey_k2 : (s.setKey x).k2 = Quad.zero := rfl
@[simp] theorem State.setKey_v : (s.setKey x).v = s.v := rfl
@[simp] theorem State.setKey_d : (s.setKey x).d = s.d := rfl
@[simp] theorem State.setKey_buf : (s.setKey x).buf = s.buf := rfl
@[simp] theorem State.setKey_tag : (s.setKey x).tag = Quad.zero := rfl
@[simp] theorem State.setKey_mlen : (s.setKey x).mlen = s.mlen := rfl
@[simp] theorem State.setKey_kv : (s.setKey x).kv = true := rfl
@[simp] theorem State.setKey_skv : (s.setKey x).skv = false := rfl
@[simp] theorem State.setKey_tv : (s.setKey x).tv = false := rfl
@[simp] theorem State.setKey_err : (s.setKey x).err = s.err := rfl
@[simp] theorem State.setKey_ecode : (s.setKey x).ecode = s.ecode := rfl
@[simp] theorem State.setKey_tl : (s.setKey x).tl = 0 := rfl
@[simp] theorem State.setKey_phase : (s.setKey x).phase = s.phase := rfl
@[simp] theorem State.setKey_off : (s.setKey x).off = s.off := rfl
@[simp] theorem State.setKey_sel : (s.setKey x).sel = s.sel := rfl
@[simp] theorem State.setKey_rnd : (s.setKey x).rnd = s.rnd := rfl
@[simp] theorem State.setKey_msg : (s.setKey x).msg = s.msg := rfl
@[simp] theorem State.setKey_taglen : (s.setKey x).taglen = s.taglen := rfl
@[simp] theorem State.setKey_msgCap : (s.setKey x).msgCap = s.msgCap := rfl
@[simp] theorem State.setKey_draw : (s.setKey x).draw = s.draw := rfl
@[simp] theorem State.setKey_pending : (s.setKey x).pending = s.pending := rfl
@[simp] theorem State.setKey_replies : (s.setKey x).replies = s.replies := rfl

end

/-! ## The delivery of the tag -/

section

variable (s : State) (f : Nat → Byte) (n : TagLen)

@[simp] theorem State.deliverTag_key : (s.deliverTag f n).key = s.key := rfl
@[simp] theorem State.deliverTag_k1 : (s.deliverTag f n).k1 = s.k1 := rfl
@[simp] theorem State.deliverTag_k2 : (s.deliverTag f n).k2 = s.k2 := rfl
@[simp] theorem State.deliverTag_v : (s.deliverTag f n).v = s.v := rfl
@[simp] theorem State.deliverTag_d : (s.deliverTag f n).d = s.d := rfl
@[simp] theorem State.deliverTag_buf : (s.deliverTag f n).buf = s.buf := rfl
@[simp] theorem State.deliverTag_tag : (s.deliverTag f n).tag = words (Block.ofFn f) := rfl
@[simp] theorem State.deliverTag_mlen : (s.deliverTag f n).mlen = s.mlen := rfl
@[simp] theorem State.deliverTag_kv : (s.deliverTag f n).kv = s.kv := rfl
@[simp] theorem State.deliverTag_skv : (s.deliverTag f n).skv = s.skv := rfl
@[simp] theorem State.deliverTag_tv : (s.deliverTag f n).tv = true := rfl
@[simp] theorem State.deliverTag_err : (s.deliverTag f n).err = s.err := rfl
@[simp] theorem State.deliverTag_ecode : (s.deliverTag f n).ecode = s.ecode := rfl
@[simp] theorem State.deliverTag_tl : (s.deliverTag f n).tl = n := rfl
@[simp] theorem State.deliverTag_phase : (s.deliverTag f n).phase = s.phase := rfl
@[simp] theorem State.deliverTag_off : (s.deliverTag f n).off = s.off := rfl
@[simp] theorem State.deliverTag_sel : (s.deliverTag f n).sel = s.sel := rfl
@[simp] theorem State.deliverTag_rnd : (s.deliverTag f n).rnd = s.rnd := rfl
@[simp] theorem State.deliverTag_msg : (s.deliverTag f n).msg = s.msg := rfl
@[simp] theorem State.deliverTag_taglen : (s.deliverTag f n).taglen = s.taglen := rfl
@[simp] theorem State.deliverTag_msgCap : (s.deliverTag f n).msgCap = s.msgCap := rfl
@[simp] theorem State.deliverTag_draw : (s.deliverTag f n).draw = s.draw := rfl
@[simp] theorem State.deliverTag_pending : (s.deliverTag f n).pending = s.pending := rfl
@[simp] theorem State.deliverTag_replies : (s.deliverTag f n).replies = s.replies := rfl

end

/-! ## The return of the scratch state to idle -/

section

variable (s : State)

@[simp] theorem State.toIdle_key : s.toIdle.key = s.key := rfl
@[simp] theorem State.toIdle_k1 : s.toIdle.k1 = s.k1 := rfl
@[simp] theorem State.toIdle_k2 : s.toIdle.k2 = s.k2 := rfl
@[simp] theorem State.toIdle_v : s.toIdle.v = Quad.zero := rfl
@[simp] theorem State.toIdle_d : s.toIdle.d = s.d := rfl
@[simp] theorem State.toIdle_buf : s.toIdle.buf = Block.zero := rfl
@[simp] theorem State.toIdle_tag : s.toIdle.tag = s.tag := rfl
@[simp] theorem State.toIdle_mlen : s.toIdle.mlen = s.mlen := rfl
@[simp] theorem State.toIdle_kv : s.toIdle.kv = s.kv := rfl
@[simp] theorem State.toIdle_skv : s.toIdle.skv = s.skv := rfl
@[simp] theorem State.toIdle_tv : s.toIdle.tv = s.tv := rfl
@[simp] theorem State.toIdle_err : s.toIdle.err = s.err := rfl
@[simp] theorem State.toIdle_ecode : s.toIdle.ecode = s.ecode := rfl
@[simp] theorem State.toIdle_tl : s.toIdle.tl = s.tl := rfl
@[simp] theorem State.toIdle_phase : s.toIdle.phase = .idle := rfl
@[simp] theorem State.toIdle_off : s.toIdle.off = 0 := rfl
@[simp] theorem State.toIdle_sel : s.toIdle.sel = .none := rfl
@[simp] theorem State.toIdle_rnd : s.toIdle.rnd = 0 := rfl
@[simp] theorem State.toIdle_msg : s.toIdle.msg = s.msg := rfl
@[simp] theorem State.toIdle_taglen : s.toIdle.taglen = 0 := rfl
@[simp] theorem State.toIdle_msgCap : s.toIdle.msgCap = s.msgCap := rfl
@[simp] theorem State.toIdle_draw : s.toIdle.draw = s.draw := rfl
@[simp] theorem State.toIdle_pending : s.toIdle.pending = s.pending := rfl
@[simp] theorem State.toIdle_replies : s.toIdle.replies = s.replies := rfl

end

/-! ## The acceptance of a MAC command -/

section

variable (s : State) (n : TagLen)

@[simp] theorem State.acceptMac_key : (s.acceptMac n).key = s.key := rfl
@[simp] theorem State.acceptMac_k1 : (s.acceptMac n).k1 = s.k1 := rfl
@[simp] theorem State.acceptMac_k2 : (s.acceptMac n).k2 = s.k2 := rfl
@[simp] theorem State.acceptMac_v : (s.acceptMac n).v = s.v := rfl
@[simp] theorem State.acceptMac_d : (s.acceptMac n).d = s.d := rfl
@[simp] theorem State.acceptMac_buf : (s.acceptMac n).buf = s.buf := rfl
@[simp] theorem State.acceptMac_tag : (s.acceptMac n).tag = s.tag := rfl
@[simp] theorem State.acceptMac_mlen : (s.acceptMac n).mlen = s.mlen := rfl
@[simp] theorem State.acceptMac_kv : (s.acceptMac n).kv = s.kv := rfl
@[simp] theorem State.acceptMac_skv : (s.acceptMac n).skv = s.skv := rfl
@[simp] theorem State.acceptMac_tv : (s.acceptMac n).tv = s.tv := rfl
@[simp] theorem State.acceptMac_err : (s.acceptMac n).err = s.err := rfl
@[simp] theorem State.acceptMac_ecode : (s.acceptMac n).ecode = s.ecode := rfl
@[simp] theorem State.acceptMac_tl : (s.acceptMac n).tl = s.tl := rfl
@[simp] theorem State.acceptMac_phase : (s.acceptMac n).phase = .init := rfl
@[simp] theorem State.acceptMac_off : (s.acceptMac n).off = s.off := rfl
@[simp] theorem State.acceptMac_sel : (s.acceptMac n).sel = s.sel := rfl
@[simp] theorem State.acceptMac_rnd : (s.acceptMac n).rnd = s.rnd := rfl
@[simp] theorem State.acceptMac_msg : (s.acceptMac n).msg = s.msg := rfl
@[simp] theorem State.acceptMac_taglen : (s.acceptMac n).taglen = n := rfl
@[simp] theorem State.acceptMac_msgCap : (s.acceptMac n).msgCap = s.msgCap := rfl
@[simp] theorem State.acceptMac_draw : (s.acceptMac n).draw = s.draw := rfl
@[simp] theorem State.acceptMac_pending : (s.acceptMac n).pending = s.pending := rfl
@[simp] theorem State.acceptMac_replies : (s.acceptMac n).replies = s.replies := rfl

end

/-! ## U_INIT (42_mac_block_processor.md R140) -/

section

variable (s : State)

@[simp] theorem State.startAbsorb_key : s.startAbsorb.key = s.key := rfl
@[simp] theorem State.startAbsorb_k1 : s.startAbsorb.k1 = s.k1 := rfl
@[simp] theorem State.startAbsorb_k2 : s.startAbsorb.k2 = s.k2 := rfl
@[simp] theorem State.startAbsorb_v : s.startAbsorb.v = s.key := rfl
@[simp] theorem State.startAbsorb_d : s.startAbsorb.d = s.d := rfl
@[simp] theorem State.startAbsorb_buf : s.startAbsorb.buf = s.buf := rfl
@[simp] theorem State.startAbsorb_tag : s.startAbsorb.tag = s.tag := rfl
@[simp] theorem State.startAbsorb_mlen : s.startAbsorb.mlen = s.mlen := rfl
@[simp] theorem State.startAbsorb_kv : s.startAbsorb.kv = s.kv := rfl
@[simp] theorem State.startAbsorb_skv : s.startAbsorb.skv = s.skv := rfl
@[simp] theorem State.startAbsorb_tv : s.startAbsorb.tv = s.tv := rfl
@[simp] theorem State.startAbsorb_err : s.startAbsorb.err = s.err := rfl
@[simp] theorem State.startAbsorb_ecode : s.startAbsorb.ecode = s.ecode := rfl
@[simp] theorem State.startAbsorb_tl : s.startAbsorb.tl = s.tl := rfl
@[simp] theorem State.startAbsorb_phase : s.startAbsorb.phase = .absorb := rfl
@[simp] theorem State.startAbsorb_off : s.startAbsorb.off = 0 := rfl
@[simp] theorem State.startAbsorb_sel : s.startAbsorb.sel = .none := rfl
@[simp] theorem State.startAbsorb_rnd : s.startAbsorb.rnd = s.rnd := rfl
@[simp] theorem State.startAbsorb_msg : s.startAbsorb.msg = s.msg := rfl
@[simp] theorem State.startAbsorb_taglen : s.startAbsorb.taglen = s.taglen := rfl
@[simp] theorem State.startAbsorb_msgCap : s.startAbsorb.msgCap = s.msgCap := rfl
@[simp] theorem State.startAbsorb_draw : s.startAbsorb.draw = s.draw := rfl
@[simp] theorem State.startAbsorb_pending : s.startAbsorb.pending = s.pending := rfl
@[simp] theorem State.startAbsorb_replies : s.startAbsorb.replies = s.replies := rfl

end

/-! ## A write of V -/

section

variable (s : State) (x : Quad)

@[simp] theorem State.setV_key : (s.setV x).key = s.key := rfl
@[simp] theorem State.setV_k1 : (s.setV x).k1 = s.k1 := rfl
@[simp] theorem State.setV_k2 : (s.setV x).k2 = s.k2 := rfl
@[simp] theorem State.setV_v : (s.setV x).v = x := rfl
@[simp] theorem State.setV_d : (s.setV x).d = s.d := rfl
@[simp] theorem State.setV_buf : (s.setV x).buf = s.buf := rfl
@[simp] theorem State.setV_tag : (s.setV x).tag = s.tag := rfl
@[simp] theorem State.setV_mlen : (s.setV x).mlen = s.mlen := rfl
@[simp] theorem State.setV_kv : (s.setV x).kv = s.kv := rfl
@[simp] theorem State.setV_skv : (s.setV x).skv = s.skv := rfl
@[simp] theorem State.setV_tv : (s.setV x).tv = s.tv := rfl
@[simp] theorem State.setV_err : (s.setV x).err = s.err := rfl
@[simp] theorem State.setV_ecode : (s.setV x).ecode = s.ecode := rfl
@[simp] theorem State.setV_tl : (s.setV x).tl = s.tl := rfl
@[simp] theorem State.setV_phase : (s.setV x).phase = s.phase := rfl
@[simp] theorem State.setV_off : (s.setV x).off = s.off := rfl
@[simp] theorem State.setV_sel : (s.setV x).sel = s.sel := rfl
@[simp] theorem State.setV_rnd : (s.setV x).rnd = s.rnd := rfl
@[simp] theorem State.setV_msg : (s.setV x).msg = s.msg := rfl
@[simp] theorem State.setV_taglen : (s.setV x).taglen = s.taglen := rfl
@[simp] theorem State.setV_msgCap : (s.setV x).msgCap = s.msgCap := rfl
@[simp] theorem State.setV_draw : (s.setV x).draw = s.draw := rfl
@[simp] theorem State.setV_pending : (s.setV x).pending = s.pending := rfl
@[simp] theorem State.setV_replies : (s.setV x).replies = s.replies := rfl

end

/-! ## The advance of OFF (42_mac_block_processor.md R141) -/

section

variable (s : State)

@[simp] theorem State.advanceOff_key : s.advanceOff.key = s.key := rfl
@[simp] theorem State.advanceOff_k1 : s.advanceOff.k1 = s.k1 := rfl
@[simp] theorem State.advanceOff_k2 : s.advanceOff.k2 = s.k2 := rfl
@[simp] theorem State.advanceOff_v : s.advanceOff.v = s.v := rfl
@[simp] theorem State.advanceOff_d : s.advanceOff.d = s.d := rfl
@[simp] theorem State.advanceOff_buf : s.advanceOff.buf = s.buf := rfl
@[simp] theorem State.advanceOff_tag : s.advanceOff.tag = s.tag := rfl
@[simp] theorem State.advanceOff_mlen : s.advanceOff.mlen = s.mlen := rfl
@[simp] theorem State.advanceOff_kv : s.advanceOff.kv = s.kv := rfl
@[simp] theorem State.advanceOff_skv : s.advanceOff.skv = s.skv := rfl
@[simp] theorem State.advanceOff_tv : s.advanceOff.tv = s.tv := rfl
@[simp] theorem State.advanceOff_err : s.advanceOff.err = s.err := rfl
@[simp] theorem State.advanceOff_ecode : s.advanceOff.ecode = s.ecode := rfl
@[simp] theorem State.advanceOff_tl : s.advanceOff.tl = s.tl := rfl
@[simp] theorem State.advanceOff_phase : s.advanceOff.phase = s.phase := rfl
@[simp] theorem State.advanceOff_off : s.advanceOff.off = s.off + 16 := rfl
@[simp] theorem State.advanceOff_sel : s.advanceOff.sel = s.sel := rfl
@[simp] theorem State.advanceOff_rnd : s.advanceOff.rnd = s.rnd := rfl
@[simp] theorem State.advanceOff_msg : s.advanceOff.msg = s.msg := rfl
@[simp] theorem State.advanceOff_taglen : s.advanceOff.taglen = s.taglen := rfl
@[simp] theorem State.advanceOff_msgCap : s.advanceOff.msgCap = s.msgCap := rfl
@[simp] theorem State.advanceOff_draw : s.advanceOff.draw = s.draw := rfl
@[simp] theorem State.advanceOff_pending : s.advanceOff.pending = s.pending := rfl
@[simp] theorem State.advanceOff_replies : s.advanceOff.replies = s.replies := rfl

end

/-! ## A move of the sequencer -/

section

variable (s : State) (p : Phase)

@[simp] theorem State.setPhase_key : (s.setPhase p).key = s.key := rfl
@[simp] theorem State.setPhase_k1 : (s.setPhase p).k1 = s.k1 := rfl
@[simp] theorem State.setPhase_k2 : (s.setPhase p).k2 = s.k2 := rfl
@[simp] theorem State.setPhase_v : (s.setPhase p).v = s.v := rfl
@[simp] theorem State.setPhase_d : (s.setPhase p).d = s.d := rfl
@[simp] theorem State.setPhase_buf : (s.setPhase p).buf = s.buf := rfl
@[simp] theorem State.setPhase_tag : (s.setPhase p).tag = s.tag := rfl
@[simp] theorem State.setPhase_mlen : (s.setPhase p).mlen = s.mlen := rfl
@[simp] theorem State.setPhase_kv : (s.setPhase p).kv = s.kv := rfl
@[simp] theorem State.setPhase_skv : (s.setPhase p).skv = s.skv := rfl
@[simp] theorem State.setPhase_tv : (s.setPhase p).tv = s.tv := rfl
@[simp] theorem State.setPhase_err : (s.setPhase p).err = s.err := rfl
@[simp] theorem State.setPhase_ecode : (s.setPhase p).ecode = s.ecode := rfl
@[simp] theorem State.setPhase_tl : (s.setPhase p).tl = s.tl := rfl
@[simp] theorem State.setPhase_phase : (s.setPhase p).phase = p := rfl
@[simp] theorem State.setPhase_off : (s.setPhase p).off = s.off := rfl
@[simp] theorem State.setPhase_sel : (s.setPhase p).sel = s.sel := rfl
@[simp] theorem State.setPhase_rnd : (s.setPhase p).rnd = s.rnd := rfl
@[simp] theorem State.setPhase_msg : (s.setPhase p).msg = s.msg := rfl
@[simp] theorem State.setPhase_taglen : (s.setPhase p).taglen = s.taglen := rfl
@[simp] theorem State.setPhase_msgCap : (s.setPhase p).msgCap = s.msgCap := rfl
@[simp] theorem State.setPhase_draw : (s.setPhase p).draw = s.draw := rfl
@[simp] theorem State.setPhase_pending : (s.setPhase p).pending = s.pending := rfl
@[simp] theorem State.setPhase_replies : (s.setPhase p).replies = s.replies := rfl

end

/-! ## U_SELECT's writes (42_mac_block_processor.md R142) -/

section

variable (s : State) (b : Block) (x : Sel)

@[simp] theorem State.selectTail_key : (s.selectTail b x).key = s.key := rfl
@[simp] theorem State.selectTail_k1 : (s.selectTail b x).k1 = s.k1 := rfl
@[simp] theorem State.selectTail_k2 : (s.selectTail b x).k2 = s.k2 := rfl
@[simp] theorem State.selectTail_v : (s.selectTail b x).v = s.v := rfl
@[simp] theorem State.selectTail_d : (s.selectTail b x).d = s.d := rfl
@[simp] theorem State.selectTail_buf : (s.selectTail b x).buf = b := rfl
@[simp] theorem State.selectTail_tag : (s.selectTail b x).tag = s.tag := rfl
@[simp] theorem State.selectTail_mlen : (s.selectTail b x).mlen = s.mlen := rfl
@[simp] theorem State.selectTail_kv : (s.selectTail b x).kv = s.kv := rfl
@[simp] theorem State.selectTail_skv : (s.selectTail b x).skv = s.skv := rfl
@[simp] theorem State.selectTail_tv : (s.selectTail b x).tv = s.tv := rfl
@[simp] theorem State.selectTail_err : (s.selectTail b x).err = s.err := rfl
@[simp] theorem State.selectTail_ecode : (s.selectTail b x).ecode = s.ecode := rfl
@[simp] theorem State.selectTail_tl : (s.selectTail b x).tl = s.tl := rfl
@[simp] theorem State.selectTail_phase : (s.selectTail b x).phase = .final := rfl
@[simp] theorem State.selectTail_off : (s.selectTail b x).off = s.off := rfl
@[simp] theorem State.selectTail_sel : (s.selectTail b x).sel = x := rfl
@[simp] theorem State.selectTail_rnd : (s.selectTail b x).rnd = s.rnd := rfl
@[simp] theorem State.selectTail_msg : (s.selectTail b x).msg = s.msg := rfl
@[simp] theorem State.selectTail_taglen : (s.selectTail b x).taglen = s.taglen := rfl
@[simp] theorem State.selectTail_msgCap : (s.selectTail b x).msgCap = s.msgCap := rfl
@[simp] theorem State.selectTail_draw : (s.selectTail b x).draw = s.draw := rfl
@[simp] theorem State.selectTail_pending : (s.selectTail b x).pending = s.pending := rfl
@[simp] theorem State.selectTail_replies : (s.selectTail b x).replies = s.replies := rfl

end

/-! ## The PERM unit's run on V (41_permutation.md R118) -/

section

variable (s : State)

@[simp] theorem State.permuteV_key : s.permuteV.key = s.key := rfl
@[simp] theorem State.permuteV_k1 : s.permuteV.k1 = s.k1 := rfl
@[simp] theorem State.permuteV_k2 : s.permuteV.k2 = s.k2 := rfl
@[simp] theorem State.permuteV_v : s.permuteV.v = (permRun s.v).x := rfl
@[simp] theorem State.permuteV_d : s.permuteV.d = s.d := rfl
@[simp] theorem State.permuteV_buf : s.permuteV.buf = s.buf := rfl
@[simp] theorem State.permuteV_tag : s.permuteV.tag = s.tag := rfl
@[simp] theorem State.permuteV_mlen : s.permuteV.mlen = s.mlen := rfl
@[simp] theorem State.permuteV_kv : s.permuteV.kv = s.kv := rfl
@[simp] theorem State.permuteV_skv : s.permuteV.skv = s.skv := rfl
@[simp] theorem State.permuteV_tv : s.permuteV.tv = s.tv := rfl
@[simp] theorem State.permuteV_err : s.permuteV.err = s.err := rfl
@[simp] theorem State.permuteV_ecode : s.permuteV.ecode = s.ecode := rfl
@[simp] theorem State.permuteV_tl : s.permuteV.tl = s.tl := rfl
@[simp] theorem State.permuteV_phase : s.permuteV.phase = s.phase := rfl
@[simp] theorem State.permuteV_off : s.permuteV.off = s.off := rfl
@[simp] theorem State.permuteV_sel : s.permuteV.sel = s.sel := rfl
@[simp] theorem State.permuteV_rnd : s.permuteV.rnd = (permRun s.v).rnd := rfl
@[simp] theorem State.permuteV_msg : s.permuteV.msg = s.msg := rfl
@[simp] theorem State.permuteV_taglen : s.permuteV.taglen = s.taglen := rfl
@[simp] theorem State.permuteV_msgCap : s.permuteV.msgCap = s.msgCap := rfl
@[simp] theorem State.permuteV_draw : s.permuteV.draw = s.draw := rfl
@[simp] theorem State.permuteV_pending : s.permuteV.pending = s.pending := rfl
@[simp] theorem State.permuteV_replies : s.permuteV.replies = s.replies := rfl

end

/-! ## An XOR into V -/

section

variable (s : State) (x : Quad)

@[simp] theorem State.xorV_key : (s.xorV x).key = s.key := rfl
@[simp] theorem State.xorV_k1 : (s.xorV x).k1 = s.k1 := rfl
@[simp] theorem State.xorV_k2 : (s.xorV x).k2 = s.k2 := rfl
@[simp] theorem State.xorV_v : (s.xorV x).v = s.v.xor x := rfl
@[simp] theorem State.xorV_d : (s.xorV x).d = s.d := rfl
@[simp] theorem State.xorV_buf : (s.xorV x).buf = s.buf := rfl
@[simp] theorem State.xorV_tag : (s.xorV x).tag = s.tag := rfl
@[simp] theorem State.xorV_mlen : (s.xorV x).mlen = s.mlen := rfl
@[simp] theorem State.xorV_kv : (s.xorV x).kv = s.kv := rfl
@[simp] theorem State.xorV_skv : (s.xorV x).skv = s.skv := rfl
@[simp] theorem State.xorV_tv : (s.xorV x).tv = s.tv := rfl
@[simp] theorem State.xorV_err : (s.xorV x).err = s.err := rfl
@[simp] theorem State.xorV_ecode : (s.xorV x).ecode = s.ecode := rfl
@[simp] theorem State.xorV_tl : (s.xorV x).tl = s.tl := rfl
@[simp] theorem State.xorV_phase : (s.xorV x).phase = s.phase := rfl
@[simp] theorem State.xorV_off : (s.xorV x).off = s.off := rfl
@[simp] theorem State.xorV_sel : (s.xorV x).sel = s.sel := rfl
@[simp] theorem State.xorV_rnd : (s.xorV x).rnd = s.rnd := rfl
@[simp] theorem State.xorV_msg : (s.xorV x).msg = s.msg := rfl
@[simp] theorem State.xorV_taglen : (s.xorV x).taglen = s.taglen := rfl
@[simp] theorem State.xorV_msgCap : (s.xorV x).msgCap = s.msgCap := rfl
@[simp] theorem State.xorV_draw : (s.xorV x).draw = s.draw := rfl
@[simp] theorem State.xorV_pending : (s.xorV x).pending = s.pending := rfl
@[simp] theorem State.xorV_replies : (s.xorV x).replies = s.replies := rfl

end

/-! ## A write of MLEN -/

section

variable (s : State) (w : Word)

@[simp] theorem State.setMlen_key : (s.setMlen w).key = s.key := rfl
@[simp] theorem State.setMlen_k1 : (s.setMlen w).k1 = s.k1 := rfl
@[simp] theorem State.setMlen_k2 : (s.setMlen w).k2 = s.k2 := rfl
@[simp] theorem State.setMlen_v : (s.setMlen w).v = s.v := rfl
@[simp] theorem State.setMlen_d : (s.setMlen w).d = s.d := rfl
@[simp] theorem State.setMlen_buf : (s.setMlen w).buf = s.buf := rfl
@[simp] theorem State.setMlen_tag : (s.setMlen w).tag = s.tag := rfl
@[simp] theorem State.setMlen_mlen : (s.setMlen w).mlen = w := rfl
@[simp] theorem State.setMlen_kv : (s.setMlen w).kv = s.kv := rfl
@[simp] theorem State.setMlen_skv : (s.setMlen w).skv = s.skv := rfl
@[simp] theorem State.setMlen_tv : (s.setMlen w).tv = s.tv := rfl
@[simp] theorem State.setMlen_err : (s.setMlen w).err = s.err := rfl
@[simp] theorem State.setMlen_ecode : (s.setMlen w).ecode = s.ecode := rfl
@[simp] theorem State.setMlen_tl : (s.setMlen w).tl = s.tl := rfl
@[simp] theorem State.setMlen_phase : (s.setMlen w).phase = s.phase := rfl
@[simp] theorem State.setMlen_off : (s.setMlen w).off = s.off := rfl
@[simp] theorem State.setMlen_sel : (s.setMlen w).sel = s.sel := rfl
@[simp] theorem State.setMlen_rnd : (s.setMlen w).rnd = s.rnd := rfl
@[simp] theorem State.setMlen_msg : (s.setMlen w).msg = s.msg := rfl
@[simp] theorem State.setMlen_taglen : (s.setMlen w).taglen = s.taglen := rfl
@[simp] theorem State.setMlen_msgCap : (s.setMlen w).msgCap = s.msgCap := rfl
@[simp] theorem State.setMlen_draw : (s.setMlen w).draw = s.draw := rfl
@[simp] theorem State.setMlen_pending : (s.setMlen w).pending = s.pending := rfl
@[simp] theorem State.setMlen_replies : (s.setMlen w).replies = s.replies := rfl

end

/-! ## The answer of an RD -/

section

variable (s : State) (w : Word)

@[simp] theorem State.reply_key : (s.reply w).key = s.key := rfl
@[simp] theorem State.reply_k1 : (s.reply w).k1 = s.k1 := rfl
@[simp] theorem State.reply_k2 : (s.reply w).k2 = s.k2 := rfl
@[simp] theorem State.reply_v : (s.reply w).v = s.v := rfl
@[simp] theorem State.reply_d : (s.reply w).d = s.d := rfl
@[simp] theorem State.reply_buf : (s.reply w).buf = s.buf := rfl
@[simp] theorem State.reply_tag : (s.reply w).tag = s.tag := rfl
@[simp] theorem State.reply_mlen : (s.reply w).mlen = s.mlen := rfl
@[simp] theorem State.reply_kv : (s.reply w).kv = s.kv := rfl
@[simp] theorem State.reply_skv : (s.reply w).skv = s.skv := rfl
@[simp] theorem State.reply_tv : (s.reply w).tv = s.tv := rfl
@[simp] theorem State.reply_err : (s.reply w).err = s.err := rfl
@[simp] theorem State.reply_ecode : (s.reply w).ecode = s.ecode := rfl
@[simp] theorem State.reply_tl : (s.reply w).tl = s.tl := rfl
@[simp] theorem State.reply_phase : (s.reply w).phase = s.phase := rfl
@[simp] theorem State.reply_off : (s.reply w).off = s.off := rfl
@[simp] theorem State.reply_sel : (s.reply w).sel = s.sel := rfl
@[simp] theorem State.reply_rnd : (s.reply w).rnd = s.rnd := rfl
@[simp] theorem State.reply_msg : (s.reply w).msg = s.msg := rfl
@[simp] theorem State.reply_taglen : (s.reply w).taglen = s.taglen := rfl
@[simp] theorem State.reply_msgCap : (s.reply w).msgCap = s.msgCap := rfl
@[simp] theorem State.reply_draw : (s.reply w).draw = s.draw := rfl
@[simp] theorem State.reply_pending : (s.reply w).pending = s.pending := rfl
@[simp] theorem State.reply_replies : (s.reply w).replies = s.replies ++ [w] := rfl

end

/-! ## The host's waiting transactions -/

section

variable (s : State) (ts : List HostTxn)

@[simp] theorem State.setPending_key : (s.setPending ts).key = s.key := rfl
@[simp] theorem State.setPending_k1 : (s.setPending ts).k1 = s.k1 := rfl
@[simp] theorem State.setPending_k2 : (s.setPending ts).k2 = s.k2 := rfl
@[simp] theorem State.setPending_v : (s.setPending ts).v = s.v := rfl
@[simp] theorem State.setPending_d : (s.setPending ts).d = s.d := rfl
@[simp] theorem State.setPending_buf : (s.setPending ts).buf = s.buf := rfl
@[simp] theorem State.setPending_tag : (s.setPending ts).tag = s.tag := rfl
@[simp] theorem State.setPending_mlen : (s.setPending ts).mlen = s.mlen := rfl
@[simp] theorem State.setPending_kv : (s.setPending ts).kv = s.kv := rfl
@[simp] theorem State.setPending_skv : (s.setPending ts).skv = s.skv := rfl
@[simp] theorem State.setPending_tv : (s.setPending ts).tv = s.tv := rfl
@[simp] theorem State.setPending_err : (s.setPending ts).err = s.err := rfl
@[simp] theorem State.setPending_ecode : (s.setPending ts).ecode = s.ecode := rfl
@[simp] theorem State.setPending_tl : (s.setPending ts).tl = s.tl := rfl
@[simp] theorem State.setPending_phase : (s.setPending ts).phase = s.phase := rfl
@[simp] theorem State.setPending_off : (s.setPending ts).off = s.off := rfl
@[simp] theorem State.setPending_sel : (s.setPending ts).sel = s.sel := rfl
@[simp] theorem State.setPending_rnd : (s.setPending ts).rnd = s.rnd := rfl
@[simp] theorem State.setPending_msg : (s.setPending ts).msg = s.msg := rfl
@[simp] theorem State.setPending_taglen : (s.setPending ts).taglen = s.taglen := rfl
@[simp] theorem State.setPending_msgCap : (s.setPending ts).msgCap = s.msgCap := rfl
@[simp] theorem State.setPending_draw : (s.setPending ts).draw = s.draw := rfl
@[simp] theorem State.setPending_pending : (s.setPending ts).pending = ts := rfl
@[simp] theorem State.setPending_replies : (s.setPending ts).replies = s.replies := rfl

end

/-! ## RESET (43_host_commands.md R167) -/

section

variable (s : State)

@[simp] theorem State.hostReset_key : s.hostReset.key = State.reset.key := rfl
@[simp] theorem State.hostReset_k1 : s.hostReset.k1 = State.reset.k1 := rfl
@[simp] theorem State.hostReset_k2 : s.hostReset.k2 = State.reset.k2 := rfl
@[simp] theorem State.hostReset_v : s.hostReset.v = State.reset.v := rfl
@[simp] theorem State.hostReset_d : s.hostReset.d = State.reset.d := rfl
@[simp] theorem State.hostReset_buf : s.hostReset.buf = State.reset.buf := rfl
@[simp] theorem State.hostReset_tag : s.hostReset.tag = State.reset.tag := rfl
@[simp] theorem State.hostReset_mlen : s.hostReset.mlen = State.reset.mlen := rfl
@[simp] theorem State.hostReset_kv : s.hostReset.kv = State.reset.kv := rfl
@[simp] theorem State.hostReset_skv : s.hostReset.skv = State.reset.skv := rfl
@[simp] theorem State.hostReset_tv : s.hostReset.tv = State.reset.tv := rfl
@[simp] theorem State.hostReset_err : s.hostReset.err = State.reset.err := rfl
@[simp] theorem State.hostReset_ecode : s.hostReset.ecode = State.reset.ecode := rfl
@[simp] theorem State.hostReset_tl : s.hostReset.tl = State.reset.tl := rfl
@[simp] theorem State.hostReset_phase : s.hostReset.phase = State.reset.phase := rfl
@[simp] theorem State.hostReset_off : s.hostReset.off = State.reset.off := rfl
@[simp] theorem State.hostReset_sel : s.hostReset.sel = State.reset.sel := rfl
@[simp] theorem State.hostReset_rnd : s.hostReset.rnd = State.reset.rnd := rfl
@[simp] theorem State.hostReset_msg : s.hostReset.msg = State.reset.msg := rfl
@[simp] theorem State.hostReset_taglen : s.hostReset.taglen = State.reset.taglen := rfl
@[simp] theorem State.hostReset_msgCap : s.hostReset.msgCap = s.msgCap := rfl
@[simp] theorem State.hostReset_draw : s.hostReset.draw = s.draw + 1 := rfl
@[simp] theorem State.hostReset_pending : s.hostReset.pending = s.pending := rfl
@[simp] theorem State.hostReset_replies : s.hostReset.replies = s.replies := rfl

end

end Sys2Proof.Machine
end

