-- ==== Sys2Proof/Laws/Memory.lean ====
section
/-! SUPPORT. The message space: reading back what was written, the canonical form, and which updates of the state
leave every byte alone. -/

namespace Sys2Proof.Machine

theorem memRead_memWrite_same (m : Memory) (a : Nat) (b : Byte) : memRead (memWrite m a b) a = some b := by
  induction m with
  | nil => simp [memWrite, memRead]
  | cons c m ih =>
    obtain ⟨x, y⟩ := c
    simp only [memWrite]
    split
    · simp [memRead]
    · split
      · simp [memRead]
      · simp only [memRead]
        rw [if_neg (by omega), ih]

theorem memRead_memWrite_other (m : Memory) {a a' : Nat} (b : Byte) (h : a' ≠ a) :
    memRead (memWrite m a b) a' = memRead m a' := by
  induction m with
  | nil => simp [memWrite, memRead, h.symm]
  | cons c m ih =>
    obtain ⟨x, y⟩ := c
    simp only [memWrite]
    split
    · simp [memRead, h.symm]
    · split
      · next _ e => subst e; simp [memRead, h.symm]
      · simp only [memRead, ih]

theorem memRead_memWrite (m : Memory) (a a' : Nat) (b : Byte) :
    memRead (memWrite m a b) a' = if a' = a then some b else memRead m a' := by
  split
  · next h => subst h; exact memRead_memWrite_same m a' b
  · next h => exact memRead_memWrite_other m b h

theorem memRisingFrom_memWrite {m : Memory} {lo a : Nat} (b : Byte) (hm : memRisingFrom lo m = true) (ha : lo ≤ a) :
    memRisingFrom lo (memWrite m a b) = true := by
  induction m generalizing lo with
  | nil => simp [memWrite, memRisingFrom, ha]
  | cons c m ih =>
    obtain ⟨x, y⟩ := c
    simp only [memRisingFrom, Bool.and_eq_true, decide_eq_true_eq] at hm
    simp only [memWrite]
    split
    · next h => simpa [memRisingFrom, ha, hm.2] using h
    · split
      · next _ e => subst e; simp [memRisingFrom, ha, hm.2]
      · simp only [memRisingFrom, Bool.and_eq_true, decide_eq_true_eq]
        exact ⟨hm.1, ih hm.2 (by omega)⟩

/-- A write keeps the canonical form. -/
theorem memWrite_wf {m : Memory} (a : Nat) (b : Byte) (hm : m.wf = true) : Memory.wf (memWrite m a b) = true :=
  memRisingFrom_memWrite b hm (Nat.zero_le a)

theorem memWrite_within {m : Memory} {cap a : Nat} (b : Byte) (hm : memWithin cap m = true) (ha : a < cap) :
    memWithin cap (memWrite m a b) = true := by
  induction m with
  | nil => simp [memWrite, memWithin, ha]
  | cons c m ih =>
    obtain ⟨x, y⟩ := c
    simp only [memWithin, List.all_cons, Bool.and_eq_true, decide_eq_true_eq] at hm ih ⊢
    simp only [memWrite]
    split
    · simp only [List.all_cons, Bool.and_eq_true, decide_eq_true_eq]; exact ⟨ha, hm⟩
    · split
      · simp only [List.all_cons, Bool.and_eq_true, decide_eq_true_eq]; exact ⟨ha, hm.2⟩
      · simp only [List.all_cons, Bool.and_eq_true, decide_eq_true_eq]; exact ⟨hm.1, ih hm.2⟩

/-- Nothing is listed below the bound. -/
theorem memRead_eq_none_of_lt {m : Memory} {lo a : Nat} (hm : memRisingFrom lo m = true) (ha : a < lo) :
    memRead m a = none := by
  induction m generalizing lo with
  | nil => rfl
  | cons c m ih =>
    obtain ⟨x, y⟩ := c
    simp only [memRisingFrom, Bool.and_eq_true, decide_eq_true_eq] at hm
    simp only [memRead]
    rw [if_neg (by omega)]
    exact ih hm.2 (by omega)

theorem eq_of_memRead_eq_from {m m' : Memory} {lo : Nat} (h : memRisingFrom lo m = true)
    (h' : memRisingFrom lo m' = true) (e : ∀ a, memRead m a = memRead m' a) : m = m' := by
  induction m generalizing lo m' with
  | nil =>
    cases m' with
    | nil => rfl
    | cons c m' => have := e c.1; simp [memRead] at this
  | cons c m ih =>
    cases m' with
    | nil => have := e c.1; simp [memRead] at this
    | cons c' m' =>
      obtain ⟨x, y⟩ := c
      obtain ⟨x', y'⟩ := c'
      simp only [memRisingFrom, Bool.and_eq_true, decide_eq_true_eq] at h h'
      have hx : x = x' := by
        have e1 := e x
        have e2 := e x'
        rcases Nat.lt_trichotomy x x' with g | g | g
        · simp [memRead, g.ne', memRead_eq_none_of_lt h'.2 (show x < x' + 1 by omega)] at e1
        · exact g
        · simp [memRead, g.ne', memRead_eq_none_of_lt h.2 (show x' < x + 1 by omega)] at e2
      subst hx
      have hy : y = y' := by have := e x; simpa [memRead] using this
      subst hy
      have hm : m = m' := by
        refine ih h.2 h'.2 fun a => ?_
        by_cases g : x = a
        · subst g
          rw [memRead_eq_none_of_lt h.2 (Nat.lt_succ_self _), memRead_eq_none_of_lt h'.2 (Nat.lt_succ_self _)]
        · have := e a
          simpa [memRead, g] using this
      rw [hm]

/-- The form is canonical: two memories in it that list the same bytes are the same data. -/
theorem eq_of_memRead_eq {m m' : Memory} (h : m.wf = true) (h' : m'.wf = true)
    (e : ∀ a, memRead m a = memRead m' a) : m = m' :=
  eq_of_memRead_eq_from h h' e

theorem State.reset_msg_wf : State.reset.msg.wf = true := rfl

/-- A state with the same written bytes and the same draw reads the same message bytes. -/
theorem msgByte_congr {s t : State} (hm : t.msg = s.msg) (hd : t.draw = s.draw) (i : Nat) : t.msgByte i = s.msgByte i := by
  simp only [State.msgByte, hm, hd]

theorem msgSlice_congr {s t : State} (hm : t.msg = s.msg) (hd : t.draw = s.draw) (off n : Nat) :
    t.msgSlice off n = s.msgSlice off n := by
  simp only [State.msgSlice, msgByte_congr hm hd]

theorem message_congr {s t : State} (hm : t.msg = s.msg) (hd : t.draw = s.draw) (hl : t.mlen = s.mlen) :
    t.message = s.message := by
  simp only [State.message, msgSlice_congr hm hd, hl]

@[simp] theorem length_msgSlice (s : State) (off n : Nat) : (s.msgSlice off n).length = n := by
  simp [State.msgSlice]

@[simp] theorem length_message (s : State) : s.message.length = s.mlen.toNat := by
  simp [State.message]

theorem getD_msgSlice (s : State) (off : Nat) {n i : Nat} (h : i < n) : (s.msgSlice off n).getD i 0 = s.msgByte (off + i) := by
  simp [State.msgSlice, List.getD_eq_getElem?_getD, h]

/-- A slice of MSG inside the message is that part of the message. -/
theorem drop_take_message (s : State) (off n : Nat) (h : off + n ≤ s.mlen.toNat) :
    (s.message.drop off).take n = s.msgSlice off n := by
  apply List.ext_getElem
  · simp; omega
  · intro i h1 h2
    simp [State.message, State.msgSlice]

/-- What MSGWR does (43_host_commands.md R166): inside MSG one byte, outside nothing. -/
theorem writeMsg_cases (s : State) (off : Nat) (b : Byte) :
    (off < s.msgCap.toNat ∧ s.writeMsg off b = { s with msg := memWrite s.msg off b }) ∨
      (s.msgCap.toNat ≤ off ∧ s.writeMsg off b = s) := by
  simp only [State.writeMsg]
  split
  · exact .inl ⟨by assumption, rfl⟩
  · exact .inr ⟨by omega, rfl⟩

end Sys2Proof.Machine
end

