-- ==== Sys2Proof/Laws/Ops.lean ====
section
/-! SUPPORT. What each shared operation can do, said once: the guard of R185, the legal tag lengths, the PERM unit on V,
the sizes of R5, and the forms of a step. -/

namespace Sys2Proof.Machine

/-- A word has WORDW bits (00_scope.md R5). `Word` is written with the numeral so that the lemmas on numerals apply. -/
theorem word_eq : Word = BitVec WORDW := rfl

/-- A four-word value has no word at or beyond NWORDS (R5, R8). -/
theorem quadWord_beyond (x : Quad) {j : Nat} (h : NWORDS ≤ j) : quadWord x j = 0 := by
  match j, h with
  | _ + 4, _ => rfl

theorem quadSetWord_beyond (x : Quad) (w : Word) {j : Nat} (h : NWORDS ≤ j) : quadSetWord x j w = x := by
  match j, h with
  | _ + 4, _ => rfl

/-- A four-word value is its NWORDS words (R5, R8). -/
theorem quad_ext_words {x y : Quad} (h : ∀ j, j < NWORDS → quadWord x j = quadWord y j) : x = y := by
  obtain ⟨a, b, c, d⟩ := x
  obtain ⟨a', b', c', d'⟩ := y
  have h0 : a = a' := h 0 (by decide)
  have h1 : b = b' := h 1 (by decide)
  have h2 : c = c' := h 2 (by decide)
  have h3 : d = d' := h 3 (by decide)
  rw [h0, h1, h2, h3]

/-- `nfull` without its case for the empty message, BLOCK = 16 (42_mac_block_processor.md R132). -/
theorem nfull_eq (n : Nat) : nfull n = (n - 1) / 16 := by
  unfold nfull
  split
  · next h => rw [h]
  · rfl

/-- `isfull` as rule R133 states it, BLOCK = 16. -/
theorem isfull_eq_true {n : Nat} : isfull n = true ↔ n ≠ 0 ∧ n % 16 = 0 := by
  simp [isfull, BLOCK]

/-- Block `j` begins at offset 16j (20_memory.md R51). -/
theorem blockAt_eq (m : List Byte) (j : Nat) : blockAt m j = blockOfList ((m.drop (16 * j)).take 16) := rfl

/-- With ERR = 1 nothing happens; else the action (60_exceptions.md R185). -/
theorem ignoredIfErr_cases {s : State} {act : State → Outcome} {o : Outcome} (h : ignoredIfErr s act = o) :
    (s.err = true ∧ o = .next s) ∨ (s.err = false ∧ o = act s) := by
  subst h
  unfold ignoredIfErr
  cases s.err <;> simp

theorem ignoredIfErr_ready {s : State} (act : State → Outcome) (h : s.err = false) : ignoredIfErr s act = act s := by
  simp [ignoredIfErr, h]

theorem ignoredIfErr_err {s : State} (act : State → Outcome) (h : s.err = true) : ignoredIfErr s act = .next s := by
  simp [ignoredIfErr, h]

/-- A tag length is legal exactly in 1..16, and is then kept as it is (30_encoding.md R73). -/
theorem legalTagLen_eq_some {t : Nat} {n : TagLen} : legalTagLen t = some n ↔ 1 ≤ t ∧ t ≤ 16 ∧ n.val = t := by
  unfold legalTagLen
  by_cases h : TAGMIN ≤ t ∧ t ≤ TAGMAX
  · rw [dif_pos h]
    constructor
    · intro e; cases e; exact ⟨h.1, h.2, rfl⟩
    · rintro ⟨_, _, e⟩; exact congrArg some (Fin.ext e.symm)
  · rw [dif_neg h]
    simp only [TAGMIN, TAGMAX] at h
    simp only [reduceCtorEq, false_iff]
    omega

theorem legalTagLen_eq_none {t : Nat} : legalTagLen t = none ↔ t = 0 ∨ 17 ≤ t := by
  unfold legalTagLen
  by_cases h : TAGMIN ≤ t ∧ t ≤ TAGMAX
  · rw [dif_pos h]
    simp only [TAGMIN, TAGMAX] at h
    simp only [reduceCtorEq, false_iff]
    omega
  · rw [dif_neg h]
    simp only [TAGMIN, TAGMAX] at h
    simp only [true_iff]
    omega

/-- The ticks of the PERM unit advance its words by rounds and RND by its count. -/
theorem permTicks_eq (n : Nat) (u : PermUnit) : permTicks n u = ⟨nextRnd^[n] u.rnd, rounds n u.x⟩ := by
  induction n generalizing u with
  | zero => rfl
  | succ n ih => exact ih (permTick u)

/-- The command dispatch of a word that decodes (43_host_commands.md R163). -/
theorem commandWord_ok {w : Word} {i : Instr} (s : State) (h : decode w = .ok i) : commandWord w s = exec i s := by
  simp [commandWord, h]

theorem commandWord_error {w : Word} {e : DecodeError} (s : State) (h : decode w = .error e) :
    commandWord w s = ignoredIfErr s fun s => .next (s.raise .opcode) := by
  simp [commandWord, h]

/-- With the sequencer idle a step performs the oldest waiting transaction. -/
theorem step_idle {s : State} (ho : s.off.toNat % 16 = 0) (hp : s.phase = .idle) : step s = portStep s := by
  simp [step, machineStep, ho, hp]

/-- With the sequencer running a step is one micro-operation. -/
theorem step_busy {s : State} (ho : s.off.toNat % 16 = 0) (hp : s.phase ≠ .idle) : step s = microStep s := by
  simp [step, machineStep, ho, hp]

theorem portStep_cons {s : State} {t : HostTxn} {rest : List HostTxn} (h : s.pending = t :: rest) :
    portStep s = hostTxn t (s.setPending rest) := by
  simp [portStep, h]

/-- A step that answers a next state: nothing waiting, one transaction, or one micro-operation. -/
theorem step_cases {s t : State} (h : step s = .next t) :
    (s.phase = .idle ∧ s.pending = [] ∧ t = s) ∨
      (s.phase = .idle ∧ ∃ x rest, s.pending = x :: rest ∧ hostTxn x (s.setPending rest) = .next t) ∨
      (s.phase ≠ .idle ∧ microStep s = .next t) := by
  simp only [step, machineStep, portStep] at h
  split at h
  · cases h
  · split at h
    · next hp =>
      split at h
      · next hq => cases h; exact .inl ⟨hp, hq, rfl⟩
      · next x rest hq => exact .inr (.inl ⟨hp, x, rest, hq, h⟩)
    · next hp => exact .inr (.inr ⟨hp, h⟩)

end Sys2Proof.Machine
end

