-- ==== Sys2Proof/Laws/PerInstr.lean ====
section
/-! SUPPORT. A statement about every command, made per constructor: the reserved field of its word is zero
(30_encoding.md R71). -/

namespace Sys2Proof.Laws

/-- "reserved, must be zero in every command" (30_encoding.md R71), and the operation code is one of 0..5 (R72). -/
def RsvFieldZero.Statement (i : Instr) : Prop :=
  i.wf = true → fieldRsv (encode i) = 0 ∧ (fieldOp (encode i)).toNat ≤ 5

theorem RsvFieldZero.nop : RsvFieldZero.Statement .nop := by unfold RsvFieldZero.Statement; decide

theorem RsvFieldZero.ldkey : RsvFieldZero.Statement .ldkey := by unfold RsvFieldZero.Statement; decide

theorem RsvFieldZero.derive : RsvFieldZero.Statement .derive := by unfold RsvFieldZero.Statement; decide

theorem RsvFieldZero.dbl : RsvFieldZero.Statement .dbl := by unfold RsvFieldZero.Statement; decide

theorem RsvFieldZero.perm : RsvFieldZero.Statement .perm := by unfold RsvFieldZero.Statement; decide

theorem RsvFieldZero.mac (tlen : Nat) : RsvFieldZero.Statement (.mac tlen) := by
  intro h
  have h : tlen < 32 := by simpa [Instr.wf] using h
  have all : ∀ t : Fin 32, fieldRsv (encode (.mac t.val)) = 0 ∧ (fieldOp (encode (.mac t.val))).toNat ≤ 5 := by decide
  exact all ⟨tlen, h⟩

end Sys2Proof.Laws
end

