-- ==== Sys2Proof/Tests/Slice0.lean ====
section
/-! SUPPORT. The model's own tests. The expected values are those of spec/95_test_vectors.md (the vector's id stands in
the theorem's comment) and of the rules' examples; the witnesses show that the hypotheses of a statement can be met. -/

namespace Sys2Proof.Tests

open Sys2Proof.Machine

-- One theorem after another: the kernel evaluations below need much memory when they run side by side.
set_option Elab.async false

/-! ## Small states and helpers -/

/-- Key A of 95_test_vectors.md, section 2.3. -/
def keyA : Quad := ⟨0x833D3433, 0x009F389F, 0x2398E64F, 0x417ACF39⟩

/-- Key B of the same section. -/
def keyB : Quad := ⟨0x00000001, 0, 0, 0xC0000000⟩

/-- After reset, with a capacity of 64 bytes. -/
def fresh : State := { State.reset with msgCap := 64 }

/-- Key A loaded, its subkeys derived, D still holding the key. -/
def ready : State :=
  { fresh with key := keyA, kv := true, k1 := double keyA, k2 := double (double keyA), skv := true, d := keyA }

/-- A fault recorded, a transaction waiting. -/
def faulted (t : HostTxn) : State := { ready with err := true, ecode := .mLen, pending := [t] }

/-- The message bytes 00, 01, 02, ... of length `n` written and MLEN set. -/
def State.holding (s : State) (n : Nat) : State :=
  { s with mlen := BitVec.ofNat 32 n, msg := (List.range n).map fun i => (i, BitVec.ofNat 8 i) }

def waiting (s : State) (t : HostTxn) : State := { s with pending := [t] }

/-- A MAC command over `n` message bytes that has reached the micro-operation of phase `p` with OFF = `off`. -/
def inside (p : Phase) (n off : Nat) : State :=
  { State.holding ready n with phase := p, off := BitVec.ofNat 32 off, taglen := 16 }

def nextState : Outcome → Option State
  | .next t => some t
  | .fault _ => none
  | .refused _ => none

def answers (o : Outcome) : Bool := (nextState o).isSome

theorem exists_next {o : Outcome} (h : answers o = true) : ∃ t, o = .next t := by
  cases o with
  | next t => exact ⟨t, rfl⟩
  | fault f => cases h
  | refused r => cases h

theorem exists_next_with {o : Outcome} {p : State → Bool} (h : (nextState o).any p = true) :
    ∃ t, o = .next t ∧ p t = true := by
  cases o with
  | next t => exact ⟨t, rfl, h⟩
  | fault f => cases h
  | refused r => cases h

/-- STATUS after a command word written to CMD. -/
def statusAfter (w : Word) (s : State) : Option Word := (nextState (hostTxn (.wr 0 w) s)).map State.status

/-! ## Well-formedness -/

theorem test_wf_mac_field_limit : (Instr.mac 31).wf = true ∧ (Instr.mac 32).wf = false ∧ (Instr.mac 48).wf = false := by
  decide

/-! ## Decode: the words of 95_test_vectors.md section 2.4, written out by the fields OP, RSV, TLEN -/

/-- E-1. -/
theorem test_decode_nop : decode 0b0000_00000000000000000000000_00000 = .ok .nop := by decide

/-- E-2. -/
theorem test_decode_ldkey : decode 0b0001_00000000000000000000000_00000 = .ok .ldkey := by decide

/-- E-3. -/
theorem test_decode_derive : decode 0b0010_00000000000000000000000_00000 = .ok .derive := by decide

/-- E-4. -/
theorem test_decode_dbl : decode 0b0011_00000000000000000000000_00000 = .ok .dbl := by decide

/-- E-5. -/
theorem test_decode_perm : decode 0b0100_00000000000000000000000_00000 = .ok .perm := by decide

/-- E-6, E-7, E-8, E-9, E-10. -/
theorem test_decode_mac :
    decode 0b0101_00000000000000000000000_10000 = .ok (.mac 16) ∧
    decode 0b0101_00000000000000000000000_00001 = .ok (.mac 1) ∧
    decode 0b0101_00000000000000000000000_00000 = .ok (.mac 0) ∧
    decode 0b0101_00000000000000000000000_10001 = .ok (.mac 17) ∧
    decode 0b0101_00000000000000000000000_11111 = .ok (.mac 31) := by decide

/-- E-11 to E-16. -/
theorem test_decode_refuses_reserved_words :
    decode 0x50000020 = .error .reservedBits ∧ decode 0x58000010 = .error .reservedBits ∧
    decode 0x10000001 = .error .operandBits ∧ decode 0x00000001 = .error .operandBits ∧
    decode 0x60000000 = .error .reservedOp ∧ decode 0xFFFFFFFF = .error .reservedOp := by decide

theorem test_decodeTableWord : decodeTableWord 32 0x50000005 = some (.mac 5) ∧ decodeTableWord 32 0x50000020 = none := by
  decide

/-- The first step after reset runs the placed word (R98, R211: DERIVE without a key). -/
theorem test_withFetchWord_runs_first :
    (nextState (step (State.reset.withFetchWord 32 0x20000000))).map (fun t => (t.err, t.ecode, t.pending)) =
      some (true, .noKey, []) := by decide

/-! ## The units -/

/-- R5: the fixed parameters. -/
theorem test_fixed_parameters :
    (ROUNDS, NWORDS, WORDW, BLOCK, TAGMIN, TAGMAX) = (8, 4, 32, 16, 1, 16) ∧ RCONST = 0x87 ∧ PADBYTE = 0x01 ∧
    (List.range 6).map ROT = [5, 16, 8, 13, 7, 16] := by decide

/-- R116: the inverse round on the row "after round 1" of section 2.2 gives the start row. -/
theorem test_roundInv_trace :
    roundInv ⟨0x345987AD, 0xEFB0C890, 0x9B4F34E7, 0x6BC2438D⟩ = ⟨0x01234567, 0x89ABCDEF, 0xFEDCBA98, 0x76543210⟩ := by
  decide +kernel

/-- D-4, D-5, D-6, D-8. -/
theorem test_double_corners :
    double ⟨0x80000000, 0x80000000, 0x80000000, 0⟩ = ⟨0, 1, 1, 1⟩ ∧
    double ⟨0, 0, 0, 0x80000000⟩ = ⟨0x87, 0, 0, 0⟩ ∧
    double ⟨0xFFFFFFFF, 0xFFFFFFFF, 0xFFFFFFFF, 0xFFFFFFFF⟩ = ⟨0xFFFFFF79, 0xFFFFFFFF, 0xFFFFFFFF, 0xFFFFFFFF⟩ ∧
    double ⟨0xC3, 0, 0, 0x80000000⟩ = ⟨0x101, 0, 0, 0⟩ := by decide

/-- Step trace of one round, section 2.2. -/
theorem test_arxRound_trace :
    arxRound ⟨0x01234567, 0x89ABCDEF, 0xFEDCBA98, 0x76543210⟩ = ⟨0x345987AD, 0xEFB0C890, 0x9B4F34E7, 0x6BC2438D⟩ := by
  decide +kernel

/-- P-3, P-5, P-7. -/
theorem test_permute_vectors :
    permute ⟨0xFFFFFFFF, 0xFFFFFFFF, 0xFFFFFFFF, 0xFFFFFFFF⟩ = ⟨0xCBA270C8, 0xEAE8C20B, 0x75C9B197, 0x3856B458⟩ ∧
    permute ⟨0, 0, 0, 0x80000000⟩ = ⟨0xF7FE9DE3, 0xD0ECD446, 0xB928D822, 0xCFCBC5B4⟩ ∧
    permute ⟨0, 1, 0, 0⟩ = ⟨0x7AA07744, 0xD2AAD6CD, 0xA3F11D96, 0x2DD08A15⟩ := by decide +kernel

/-- R132: nfull at the block boundaries; R133: isfull. -/
theorem test_nfull_boundaries :
    [0, 1, 15, 16, 17, 31, 32, 33, 48, 49].map nfull = [0, 0, 0, 0, 1, 1, 1, 2, 2, 3] ∧
    [0, 15, 16, 17, 32].map isfull = [false, false, true, false, true] := by decide

/-- M-B20: the text "uvagroundv1 MAC core" under key B; its tag of five bytes (program P3). -/
theorem test_mac_text :
    mac keyB ⟨0x85, 0, 0, 0x80000000⟩ ⟨0x18D, 0, 0, 0⟩
      [0x75, 0x76, 0x61, 0x67, 0x72, 0x6f, 0x75, 0x6e, 0x64, 0x76, 0x31, 0x20, 0x4d, 0x41, 0x43, 0x20, 0x63, 0x6f, 0x72,
        0x65] 5 = some [0x19, 0x1b, 0xb7, 0x72, 0x40] := by decide +kernel

/-- M-A16, M-A17: the boundary between K1 and K2. -/
theorem test_mac_block_boundary :
    mac keyA (double keyA) (double (double keyA)) ((List.range 16).map (BitVec.ofNat 8)) 4 = some [0xa9, 0x1c, 0x27, 0x79] ∧
    mac keyA (double keyA) (double (double keyA)) ((List.range 17).map (BitVec.ofNat 8)) 1 = some [0x68] ∧
    mac keyA keyA keyA [] 0 = none ∧ mac keyA keyA keyA [] 17 = none := by decide +kernel

/-! ## The commands -/

/-- R164: with ERR = 1 too. -/
theorem test_nop_keeps_state : nextState (exec .nop (faulted (.rd 0))) = some (faulted (.rd 0)) := rfl

/-- R165 example, F-11: the subkeys and the tag of the old key are withdrawn. -/
theorem test_ldkey_withdraws :
    (nextState (exec .ldkey { ready with tv := true, tl := 16, tag := keyB })).map
      (fun t => (t.key, t.k1, t.k2, t.tag, t.status)) = some (keyA, Quad.zero, Quad.zero, Quad.zero, 0x00000001) := by
  decide

/-- R98 example, D-9, D-10. -/
theorem test_derive_key_A :
    (nextState (exec .derive { fresh with key := keyA, kv := true })).map (fun t => (t.k1, t.k2, t.status)) =
      some (⟨0x067A6866, 0x013E713F, 0x4731CC9E, 0x82F59E72⟩, ⟨0x0CF4D04B, 0x027CE27E, 0x8E63993C, 0x05EB3CE4⟩,
        0x00000003) := by decide

/-- R97 example, D-11. -/
theorem test_dbl_operand :
    (nextState (exec .dbl { fresh with d := ⟨0x01234567, 0x89ABCDEF, 0xFEDCBA98, 0x76543210⟩ })).map (·.d) =
      some ⟨0x02468ACE, 0x13579BDE, 0xFDB97531, 0xECA86421⟩ := by decide

/-- R117 example, P-2. -/
theorem test_perm_operand :
    (nextState (exec .perm { fresh with d := ⟨1, 0, 0, 0⟩ })).map (·.d) =
      some ⟨0xF27C371C, 0x761FD761, 0x98743A86, 0x59D8BB11⟩ := by decide +kernel

/-- R139 example, M-A0: the empty message. -/
theorem test_mac_empty_message :
    (nextState (exec (.mac 16) ready)).map (fun t => (t.tag, t.status)) =
      some (⟨0x792E8FE5, 0x75CE87AA, 0x2D1450B5, 0x1191970B⟩, 0x00001007) := by decide +kernel

/-- M-A33/5: two blocks absorbed, a padded tail, a truncated tag; the scratch state is idle again. -/
theorem test_mac_truncated_tag :
    (nextState (exec (.mac 5) (State.holding ready 33))).map (fun t => (t.tag, t.status, t.v, t.off, t.phase)) =
      some (⟨0xDF44EA33, 0x00000098, 0, 0⟩, 0x00000507, Quad.zero, 0, .idle) := by decide +kernel

/-! ## Faults and the host port -/

/-- F-1, F-2, F-3, F-7. -/
theorem test_faults_after_reset :
    statusAfter 0x50000010 fresh = some 0x00000038 ∧ statusAfter 0x50000000 fresh = some 0x00000028 ∧
    statusAfter 0x20000000 fresh = some 0x00000038 ∧ statusAfter 0x60000000 fresh = some 0x00000018 := by decide +kernel

/-- F-4, F-5, F-6. -/
theorem test_mac_faults_with_key :
    statusAfter 0x50000010 { fresh with key := keyA, kv := true } = some 0x00000049 ∧
    statusAfter 0x50000011 ready = some 0x0000002B ∧
    statusAfter 0x50000010 { ready with mlen := 65 } = some 0x0000005B := by decide +kernel

/-- F-9: a command after a fault is ignored. -/
theorem test_command_after_fault_ignored :
    (nextState (step (faulted (.wr 0 0x50000010)))).map (fun t => (t.tv, t.ecode, t.tag)) =
      some (false, .mLen, Quad.zero) := by decide +kernel

/-- F-12: writes of read-only and undefined indices, reads of undefined indices and CMD. -/
theorem test_undefined_indices :
    ready.writeReg 1 0xFFFFFFFF = ready ∧ ready.writeReg 8 5 = ready ∧ ready.writeReg 25 7 = ready ∧
    ready.readReg 25 = 0 ∧ ready.readReg 0 = 0 ∧ ready.readReg 8 = 0x067A6866 ∧ ready.readReg 15 = 0x05EB3CE4 := by
  decide

/-- F-10, R167, R41: RESET clears the fault and the written bytes. -/
theorem test_reset_clears :
    (nextState (step { State.holding (faulted .reset) 3 with replies := [7] })).map
      (fun t => (t.status, t.key, t.msgCap, t.draw)) = some (0, Quad.zero, 64, 1) ∧
    (nextState (step (State.holding (faulted .reset) 3))).map (·.msg) = some [] := by decide

/-- R166: a byte at or beyond MSGCAP is ignored; the list stays in order. -/
theorem test_msgwr :
    (((fresh.writeMsg 63 0x0a).writeMsg 5 0x0b).writeMsg 64 0x0c).msg = [(5, 0x0b), (63, 0x0a)] := by decide

/-- R28: an RD of CMD gives 0; an RD of D gives the word; the answer goes to the host. -/
theorem test_rd_answers : (nextState (step (waiting ready (.rd 4)))).map (·.replies) = some [0x833D3433] := by decide

/-! ## The micro-operations -/

/-- T-33: V after the first absorbed block, OFF moved on, RND back at 0 (R141, R118). -/
theorem test_absorb_first_block :
    (nextState (step { inside .absorb 33 0 with v := keyA })).map (fun t => (t.v, t.off, t.phase, t.rnd)) =
      some (⟨0x74EAB5FF, 0xD68DCD41, 0x47598E57, 0x3F7F4651⟩, 16, .absorb, 0) := by decide +kernel

/-- T-33, T-16: the trailing blocks. -/
theorem test_select_buffers :
    (nextState (step (inside .select 33 32))).map (fun t => (t.buf.toList, t.sel)) =
      some ([0x20, 1, 0, 0, 0, 0, 0, 0, 0, 0, 0, 0, 0, 0, 0, 0], .k2) ∧
    (nextState (step (inside .select 16 0))).map (fun t => (t.buf.toList, t.sel)) =
      some ([0, 1, 2, 3, 4, 5, 6, 7, 8, 9, 10, 11, 12, 13, 14, 15], .k1) := by decide +kernel

/-- T-16: the state after finalization with K1. -/
theorem test_final_with_k1 :
    (nextState (step { inside .final 16 0 with v := keyA, sel := .k1, buf := Block.ofFn fun i => BitVec.ofNat 8 i })).map
      (fun t => (t.v, t.phase)) = some (⟨0x79271CA9, 0xD66A1C71, 0x81CA474E, 0x49831CAD⟩, .extract) := by decide +kernel

/-- R144 example: taglen = 6. -/
theorem test_extract_six_bytes :
    (nextState (step { inside .extract 0 0 with
      v := ⟨0x792E8FE5, 0x75CE87AA, 0x2D1450B5, 0x1191970B⟩, taglen := 6 })).map (fun t => (t.tag, t.tl, t.v)) =
      some (⟨0x792E8FE5, 0x000087AA, 0, 0⟩, 6, Quad.zero) := by decide +kernel

/-- 93_implementation_defined.md U9. -/
theorem test_misaligned_off_is_stuck : step { fresh with off := 8 } = .fault .offNotBlockMultiple := rfl

/-! ## Witnesses: states and operands that meet the hypotheses of the statements -/

theorem at_waiting {s : State} (t : HostTxn) (hp : s.phase = .idle) (ho : s.off = 0) : AtPort (waiting s t) t [] :=
  ⟨hp, by simp [waiting, ho], rfl⟩

theorem at_fresh (t : HostTxn) : AtPort (waiting fresh t) t [] := at_waiting t rfl rfl

theorem at_faulted (t : HostTxn) : AtPort (faulted t) t [] := ⟨rfl, rfl, rfl⟩

theorem accepted_ready (n t : Nat) (hn : n ≤ 64) (h1 : 1 ≤ t) (h2 : t ≤ 16) : MacAccepted (State.holding ready n) t :=
  ⟨rfl, ⟨h1, h2⟩, rfl, rfl, by
    show BitVec.ofNat 32 n ≤ 64
    rw [BitVec.le_def, BitVec.toNat_ofNat, Nat.mod_eq_of_lt (by omega)]
    exact hn⟩

theorem dataInv_ready : DataInv ready where
  no_key := by decide
  subkeys := by decide
  no_subkeys := by decide
  tag_valid := fun h => by cases h
  no_tag := by decide
  err_code := by decide
  msg_form := by decide
  msg_within := by decide

theorem idleInv_ready_with (ts : List HostTxn) (x : Quad) : IdleInv { ready with pending := ts, d := x } where
  data := ⟨dataInv_ready.no_key, dataInv_ready.subkeys, dataInv_ready.no_subkeys, dataInv_ready.tag_valid,
    dataInv_ready.no_tag, dataInv_ready.err_code, dataInv_ready.msg_form, dataInv_ready.msg_within⟩
  rest := ⟨rfl, rfl, rfl, rfl, rfl, rfl, rfl⟩

theorem idleInv_ready (ts : List HostTxn) : IdleInv { ready with pending := ts } := idleInv_ready_with ts keyA

/-- A MAC command over the empty message, before its U_ABSORB. -/
theorem busyInv_absorb : BusyInv { inside .absorb 0 0 with v := keyA } where
  data := ⟨dataInv_ready.no_key, dataInv_ready.subkeys, dataInv_ready.no_subkeys, dataInv_ready.tag_valid,
    dataInv_ready.no_tag, dataInv_ready.err_code, dataInv_ready.msg_form, dataInv_ready.msg_within⟩
  accepted := by decide
  taglen_legal := by decide
  off_legal := by decide
  scratch := ⟨rfl, Nat.le_refl 0⟩

theorem witness_DecodeOfEncodeIsTheCommand :
    (Instr.mac 0).wf = true ∧ (Instr.mac 31).wf = true ∧ Instr.nop.wf = true ∧ Instr.ldkey.wf = true ∧
    Instr.derive.wf = true ∧ Instr.dbl.wf = true ∧ Instr.perm.wf = true := by decide

theorem witness_EncodeOfDecodeIsTheWord : decode 0x5000001F = .ok (.mac 31) ∧ decode 0x40000000 = .ok .perm := by decide

theorem witness_IllegalWordsAreTheReservedOnes :
    decode 0x6FFFFFFF = .error .reservedOp ∧ decode 0x4FFFFFFF = .error .operandBits ∧
    decode 0x5FFFFFFF = .error .reservedBits ∧ fresh.err = false := by decide

theorem witness_StepRunsTheDecodedCommand :
    AtPort (waiting fresh (.wr 0 0x30000000)) (.wr 0 0x30000000) [] ∧ decode 0x30000000 = .ok .dbl :=
  ⟨at_fresh _, by decide⟩

theorem witness_IdleStepKeepsAllState : ready.phase = .idle ∧ ready.off.toNat % 16 = 0 ∧ ready.pending = [] := by decide

theorem witness_ReadAnswersByTheIndexTable :
    AtPort (waiting fresh (.rd 0)) (.rd 0) [] ∧ AtPort (waiting fresh (.rd 1)) (.rd 1) [] ∧
    AtPort (waiting fresh (.rd 2)) (.rd 2) [] ∧ AtPort (waiting fresh (.rd 3)) (.rd 3) [] ∧
    AtPort (waiting fresh (.rd 4)) (.rd 4) [] ∧ AtPort (waiting fresh (.rd 11)) (.rd 11) [] ∧
    AtPort (waiting fresh (.rd 12)) (.rd 12) [] ∧ AtPort (waiting fresh (.rd 19)) (.rd 19) [] ∧
    AtPort (waiting fresh (.rd 20)) (.rd 20) [] :=
  ⟨at_fresh _, at_fresh _, at_fresh _, at_fresh _, at_fresh _, at_fresh _, at_fresh _, at_fresh _, at_fresh _⟩

theorem witness_WriteStoresByTheIndexTable :
    AtPort (waiting fresh (.wr 2 5)) (.wr 2 5) [] ∧ AtPort (waiting fresh (.wr 4 5)) (.wr 4 5) [] ∧
    AtPort (waiting fresh (.wr 5 5)) (.wr 5 5) [] ∧ AtPort (waiting fresh (.wr 6 5)) (.wr 6 5) [] ∧
    AtPort (waiting fresh (.wr 7 5)) (.wr 7 5) [] ∧ AtPort (waiting fresh (.wr 8 5)) (.wr 8 5) [] ∧
    AtPort (waiting fresh (.wr 3 5)) (.wr 3 5) [] ∧ AtPort (waiting fresh (.wr 1 5)) (.wr 1 5) [] :=
  ⟨at_fresh _, at_fresh _, at_fresh _, at_fresh _, at_fresh _, at_fresh _, at_fresh _, at_fresh _⟩

theorem witness_MessageWriteChangesOneByte :
    (AtPort (waiting fresh (.msgwr 63 9)) (.msgwr 63 9) [] ∧ 63 < (waiting fresh (.msgwr 63 9)).msgCap.toNat) ∧
    (AtPort (waiting fresh (.msgwr 64 9)) (.msgwr 64 9) [] ∧ (waiting fresh (.msgwr 64 9)).msgCap.toNat ≤ 64) :=
  ⟨⟨at_fresh _, by decide⟩, ⟨at_fresh _, by decide⟩⟩

theorem witness_ResetTransactionRestoresResetValues : AtPort (faulted .reset) .reset [] := at_faulted _

theorem witness_OnlyCommandsAreIgnoredAfterAFault :
    (faulted (.wr 0 0x30000000)).err = true ∧ AtPort (faulted (.wr 0 0x30000000)) (.wr 0 0x30000000) [] ∧
    AtPort (faulted (.rd 1)) (.rd 1) [] ∧ AtPort (faulted (.wr 2 9)) (.wr 2 9) [] ∧
    AtPort (faulted (.wr 4 9)) (.wr 4 9) [] ∧ AtPort (faulted (.wr 7 9)) (.wr 7 9) [] ∧
    (AtPort (faulted (.msgwr 63 9)) (.msgwr 63 9) [] ∧ 63 < (faulted (.msgwr 63 9)).msgCap.toNat) :=
  ⟨rfl, at_faulted _, at_faulted _, at_faulted _, at_faulted _, at_faulted _, at_faulted _, by decide⟩

theorem witness_TransactionsWaitForTheSequencer :
    (waiting (inside .select 1 0) (.rd 1)).phase ≠ .idle ∧ ∃ t, step (waiting (inside .select 1 0) (.rd 1)) = .next t :=
  ⟨by decide, exists_next (by decide +kernel)⟩

theorem witness_LdkeyLoadsTheKey : ready.err = false ∧ (faulted .reset).err = true := by decide

theorem witness_DeriveWritesBothSubkeys :
    (ready.err = false ∧ ready.kv = true) ∧ (fresh.err = false ∧ fresh.kv = false) ∧ (faulted .reset).err = true := by
  decide

theorem witness_DblDoublesTheOperand : ready.err = false ∧ (faulted .reset).err = true := by decide

theorem witness_PermPermutesTheOperand : ready.err = false ∧ (faulted .reset).err = true := by decide

/-- The accepted command at the boundary tag lengths and the full capacity, and each of its faults. -/
theorem witness_MacDeliversTheTag :
    MacAccepted (State.holding ready 0) 1 ∧ MacAccepted (State.holding ready 64) 16 ∧
    (fresh.err = false ∧ fresh.kv = false) ∧
    ({ fresh with kv := true }.err = false ∧ { fresh with kv := true }.kv = true ∧ { fresh with kv := true }.skv = false) ∧
    ({ ready with mlen := 65 }.err = false ∧ { ready with mlen := 65 }.kv = true ∧ { ready with mlen := 65 }.skv = true ∧
      { ready with mlen := 65 }.msgCap < { ready with mlen := 65 }.mlen) ∧ (faulted .reset).err = true :=
  ⟨accepted_ready 0 1 (by decide) (by decide) (by decide), accepted_ready 64 16 (by decide) (by decide) (by decide),
    by decide, by decide, by decide, rfl⟩

theorem witness_CommandFrame :
    (∃ t, exec .nop ready = .next t) ∧ (∃ t, exec .ldkey ready = .next t) ∧ (∃ t, exec .derive ready = .next t) ∧
    (∃ t, exec .dbl ready = .next t) ∧ (∃ t, exec .perm ready = .next t) ∧ (∃ t, exec (.mac 16) ready = .next t) :=
  ⟨exists_next rfl, exists_next rfl, exists_next rfl, exists_next rfl, exists_next rfl, exists_next (by decide +kernel)⟩

theorem witness_FaultsByCommand :
    fresh.err = false ∧ (∃ t, exec (.mac 0) fresh = .next t ∧ t.err = true) ∧
    (∃ t, exec .derive fresh = .next t ∧ t.err = true) ∧
    (decode 0x60000000 = .error .reservedOp ∧ ∃ t, commandWord 0x60000000 fresh = .next t) ∧
    ((∀ w, HostTxn.reset ≠ .wr 0 w) ∧ ∃ t, hostTxn .reset fresh = .next t) :=
  ⟨rfl, exists_next_with (p := (·.err)) (by decide), exists_next_with (p := (·.err)) (by decide),
    ⟨by decide, exists_next (by decide)⟩, ⟨(fun _ h => by cases h), exists_next rfl⟩⟩

/-- One word for each place of the priority list. -/
theorem witness_FirstViolationIsReported :
    (faulted .reset).err = true ∧ fresh.err = false ∧ ready.err = false ∧
    violation fresh 0x60000000 = some .opcode ∧ violation fresh 0x50000000 = some .tagLen ∧
    violation fresh 0x50000011 = some .tagLen ∧ violation fresh 0x50000010 = some .noKey ∧
    violation fresh 0x20000000 = some .noKey ∧ violation { fresh with kv := true } 0x50000001 = some .noSubkey ∧
    violation { ready with mlen := 65 } 0x50000010 = some .mLen ∧ violation { ready with mlen := 64 } 0x50000010 = none ∧
    violation ready 0x40000000 = none := by decide

theorem witness_DeriveIsIdempotent : ready.kv = true ∧ ∃ t, exec .derive ready = .next t := ⟨rfl, exists_next rfl⟩

theorem witness_MacIsRepeatable : MacAccepted (State.holding ready 0) 16 ∧ ∃ u, exec (.mac 16) (State.holding ready 0) = .next u :=
  ⟨accepted_ready 0 16 (by decide) (by decide) (by decide), exists_next (by decide +kernel)⟩

theorem witness_SubkeysFollowTheKey : ready.err = false ∧ ∃ u, exec .ldkey ready = .next u := ⟨rfl, exists_next rfl⟩

/-- Each register changes in some step. -/
theorem witness_RegistersChangeOnlyByTheirWriters :
    (∃ t, step (waiting { fresh with d := keyA } (.wr 0 0x10000000)) = .next t ∧ decide (t.key ≠ Quad.zero) = true) ∧
    (∃ t, step (waiting { fresh with key := keyA, kv := true } (.wr 0 0x20000000)) = .next t ∧
      decide (t.k1 ≠ Quad.zero) = true) ∧
    (∃ t, step (waiting fresh (.wr 7 1)) = .next t ∧ decide (t.d ≠ Quad.zero) = true) ∧
    (∃ t, step (waiting ready (.wr 0 0x50000010)) = .next t ∧ decide (t.tag ≠ Quad.zero) = true) ∧
    (∃ t, step (waiting fresh (.wr 2 1)) = .next t ∧ decide (t.mlen ≠ 0) = true) :=
  ⟨exists_next_with (p := fun t => decide (t.key ≠ Quad.zero)) (by decide),
    exists_next_with (p := fun t => decide (t.k1 ≠ Quad.zero)) (by decide),
    exists_next_with (p := fun t => decide (t.d ≠ Quad.zero)) (by decide),
    exists_next_with (p := fun t => decide (t.tag ≠ Quad.zero)) (by decide +kernel),
    exists_next_with (p := fun t => decide (t.mlen ≠ 0)) (by decide)⟩

theorem witness_MessageBytesChangeOnlyByTheHost :
    (∃ t, step (waiting fresh (.msgwr 5 1)) = .next t) ∧ (waiting fresh (.msgwr 5 1)).pending.head? ≠ some .reset ∧
    ∀ b, (waiting fresh (.msgwr 5 1)).pending.head? ≠ some (.msgwr 4 b) :=
  ⟨exists_next rfl, by decide, fun b h => by simp [waiting] at h⟩

theorem witness_FaultIsFinalUntilReset :
    (faulted (.wr 0 0x10000000)).err = true ∧ (faulted (.wr 0 0x10000000)).phase = .idle ∧
    (faulted (.wr 0 0x10000000)).pending.head? ≠ some .reset ∧ ∃ t, step (faulted (.wr 0 0x10000000)) = .next t :=
  ⟨rfl, rfl, by decide, exists_next rfl⟩

theorem witness_StepKeepsTheIdleInvariants :
    IdleInv { ready with pending := [.wr 0 0x50000010] } ∧
    ∃ t, step { ready with pending := [.wr 0 0x50000010] } = .next t :=
  ⟨idleInv_ready _, exists_next (by decide +kernel)⟩

theorem witness_StepKeepsTheMachineInvariant :
    MachineInv { inside .absorb 0 0 with v := keyA } ∧ ∃ t, step { inside .absorb 0 0 with v := keyA } = .next t :=
  ⟨.inr busyInv_absorb, exists_next (by decide +kernel)⟩

theorem witness_InvariantStatesNeverStop :
    MachineInv { ready with pending := [.reset] } ∧ MachineInv { inside .absorb 0 0 with v := keyA } :=
  ⟨.inl (idleInv_ready _), .inr busyInv_absorb⟩

/-- The last round but one. -/
theorem witness_RoundCounterRunsToZero : 7 < 8 ∧ (permTicks 7 ⟨0, keyA⟩).rnd.val = 7 := by decide +kernel

/-- The last byte. -/
theorem witness_BytesAndWordsAreInverse : 15 < 16 ∧ (bytes keyA)[15] = 0x41 := by decide

theorem witness_TagPrefixStability : (1 ≤ 1 ∧ 1 ≤ 16) ∧ (1 ≤ 16 ∧ 16 ≤ 16) ∧ 17 ≤ 17 := by decide

theorem witness_AbsorbedBlocksAreWhole : 0 < nfull (List.replicate 17 (0x5a : Byte)).length := by decide

theorem witness_TrailingBlockIsTakenOrPadded :
    ((List.replicate 16 (1 : Byte)).length ≠ 0 ∧ (List.replicate 16 (1 : Byte)).length % 16 = 0) ∧
    ([] : List Byte).length = 0 ∧ (List.replicate 31 (1 : Byte)).length % 16 ≠ 0 ∧ (List.replicate 15 (1 : Byte)).length = 15 := by
  decide

theorem witness_InitMicroOperation : (inside .init 0 0).phase = .init ∧ (inside .init 0 0).off.toNat % 16 = 0 := by decide

/-- 17 unconsumed bytes, and 16. -/
theorem witness_AbsorbMicroOperation :
    ((inside .absorb 17 0).phase = .absorb ∧ (inside .absorb 17 0).off.toNat % 16 = 0 ∧
      (inside .absorb 17 0).off ≤ (inside .absorb 17 0).mlen ∧ (inside .absorb 17 0).mlen ≤ (inside .absorb 17 0).msgCap ∧
      (inside .absorb 17 0).mlen.toNat - (inside .absorb 17 0).off.toNat > 16) ∧
    ((inside .absorb 32 16).phase = .absorb ∧ (inside .absorb 32 16).off.toNat % 16 = 0 ∧
      (inside .absorb 32 16).off ≤ (inside .absorb 32 16).mlen ∧ (inside .absorb 32 16).mlen ≤ (inside .absorb 32 16).msgCap ∧
      (inside .absorb 32 16).mlen.toNat - (inside .absorb 32 16).off.toNat ≤ 16) := by decide

/-- r = 16, r = 15 and r = 0. -/
theorem witness_SelectMicroOperation :
    ((inside .select 32 16).phase = .select ∧ (inside .select 32 16).off.toNat % 16 = 0 ∧
      (inside .select 32 16).off ≤ (inside .select 32 16).mlen ∧ (inside .select 32 16).mlen ≤ (inside .select 32 16).msgCap ∧
      16 = (inside .select 32 16).mlen.toNat - (inside .select 32 16).off.toNat) ∧
    15 = (inside .select 31 16).mlen.toNat - (inside .select 31 16).off.toNat ∧
    0 = (inside .select 0 0).mlen.toNat - (inside .select 0 0).off.toNat := by decide

theorem witness_FinalMicroOperation :
    ((inside .final 16 0).phase = .final ∧ (inside .final 16 0).off.toNat % 16 = 0) ∧
    { inside .final 16 0 with sel := .k1 }.sel = .k1 ∧ { inside .final 17 16 with sel := .k2 }.sel = .k2 := by decide

theorem witness_ExtractMicroOperation :
    (inside .extract 16 0).phase = .extract ∧ (inside .extract 16 0).off.toNat % 16 = 0 := by decide

theorem witness_SmallStepsAgreeWithTheCommand :
    MacAccepted (State.holding ready 64) 16 ∧ (16 : TagLen).val = 16 ∧ (State.holding ready 64).off.toNat % 16 = 0 :=
  ⟨accepted_ready 64 16 (by decide) (by decide) (by decide), rfl, rfl⟩

theorem witness_SequencerStepCount :
    MacAccepted (State.holding ready 33) 1 ∧ (1 : TagLen).val = 1 ∧ (State.holding ready 33).off.toNat % 16 = 0 ∧
    7 ≤ nfull (State.holding ready 33).mlen.toNat + 5 :=
  ⟨accepted_ready 33 1 (by decide) (by decide) (by decide), rfl, rfl, by decide⟩

/-- Other bytes stand at and beyond MLEN. -/
theorem witness_BytesBeyondTheMessageAreNotRead :
    (∀ a, a < (State.holding ready 1).mlen.toNat →
      State.msgByte { State.holding ready 1 with msg := [(0, 0), (1, 7), (40, 9)] } a = (State.holding ready 1).msgByte a) ∧
    ∃ u, exec (.mac 16) (State.holding ready 1) = .next u :=
  ⟨fun a h => by
    have h : a < 1 := h
    have h0 : a = 0 := by omega
    subst h0; rfl, exists_next (by decide +kernel)⟩

/-- The two cores differ in D and in what waits. -/
theorem witness_TagDependsOnKeyMessageAndLength :
    IdleInv { ready with pending := [] } ∧ MacAccepted { ready with pending := [] } 16 ∧
    IdleInv { ready with pending := [.rd 1], d := keyB } ∧ MacAccepted { ready with pending := [.rd 1], d := keyB } 16 ∧
    (∀ a, a < ready.mlen.toNat → ready.msgByte a = State.msgByte { ready with pending := [.rd 1], d := keyB } a) ∧
    (∃ u, exec (.mac 16) { ready with pending := [] } = .next u) ∧
    (∃ u, exec (.mac 16) { ready with pending := [.rd 1], d := keyB } = .next u) :=
  ⟨idleInv_ready _, ⟨rfl, by decide, rfl, rfl, by decide⟩, idleInv_ready_with _ _, ⟨rfl, by decide, rfl, rfl, by decide⟩,
    fun _ _ => rfl, exists_next (by decide +kernel), exists_next (by decide +kernel)⟩

theorem witness_DeriveSubkeysOnTheHostInterface :
    IdleInv { ready with pending := deriveSubkeysTxns keyB ++ [.rd 1] } ∧ ready.err = false :=
  ⟨idleInv_ready _, rfl⟩

theorem witness_ComputeTagOnTheHostInterface :
    IdleInv { ready with pending := computeTagTxns keyB (List.replicate 64 0x5a) 16 ++ [] } ∧ ready.err = false ∧
    (List.replicate 64 (0x5a : Byte)).length ≤ ready.msgCap.toNat :=
  ⟨idleInv_ready _, rfl, by decide⟩

end Sys2Proof.Tests
end

section
/-! PROOF. The byte layout of words and blocks (00_scope.md R8, R10): `le32`, `words` and `bytes` word by word and byte
by byte, that `words` and `bytes` are inverse, and that byte `i` is bits `8i+7 : 8i` of the 128-bit value. -/

namespace Sys2Proof.Machine

/-! ## One word and its four bytes -/

/-- `le32` puts byte `k` at bits `8k+7 : 8k`. -/
theorem extractLsb'_le32 (f : Nat → Byte) {k : Nat} (h : k < 4) :
    (le32 (f 0) (f 1) (f 2) (f 3)).extractLsb' (8 * k) 8 = f k := by
  ext i hi
  match k, h with
  | 0, _ | 1, _ | 2, _ | 3, _ => simp only [le32, BitVec.getElem_extractLsb', BitVec.getLsbD_append]; grind

/-- A word is the `le32` of its four bytes. -/
theorem le32_extractLsb' (w : Word) :
    le32 (w.extractLsb' 0 8) (w.extractLsb' 8 8) (w.extractLsb' 16 8) (w.extractLsb' 24 8) = w := by
  rw [le32, BitVec.extractLsb'_append_extractLsb'_eq_extractLsb' (show 24 = 16 + 8 from rfl),
    BitVec.extractLsb'_append_extractLsb'_eq_extractLsb' (show 16 = 8 + 8 from rfl),
    BitVec.extractLsb'_append_extractLsb'_eq_extractLsb' (show 8 = 0 + 8 from rfl)]
  exact BitVec.extractLsb'_eq_self

/-! ## Blocks -/

@[simp] theorem Block.getElem_ofFn (f : Nat → Byte) {i : Nat} (h : i < 16) : (Block.ofFn f)[i] = f i := by
  interval_cases i <;> rfl

/-- A block is its sixteen bytes. -/
theorem Block.exists_eq_ofFn (b : Block) : ∃ f, b = Block.ofFn f :=
  ⟨fun i => b[i]?.getD 0, Vector.ext fun i h => by simp [h]⟩

/-- Word `j` of `words(B)` is the `le32` of the bytes 4j .. 4j+3 of `B` (R10). -/
theorem quadWord_words_ofFn (f : Nat → Byte) {j : Nat} (h : j < 4) :
    quadWord (words (Block.ofFn f)) j = le32 (f (4 * j)) (f (4 * j + 1)) (f (4 * j + 2)) (f (4 * j + 3)) := by
  match j, h with
  | 0, _ | 1, _ | 2, _ | 3, _ => rfl

/-! ## Words and bytes -/

@[simp] theorem getElem_bytes (x : Quad) {i : Nat} (h : i < 16) : (bytes x)[i] = byteOf x i :=
  Block.getElem_ofFn _ h

/-- Byte `4j + k` of a four-word value is byte `k` of its word `j` (R10). -/
theorem byteOf_mul_add (x : Quad) (j : Nat) {k : Nat} (h : k < 4) :
    byteOf x (4 * j + k) = (quadWord x j).extractLsb' (8 * k) 8 := by
  have hj : (4 * j + k) / 4 = j := by omega
  have hk : (4 * j + k) % 4 = k := by omega
  rw [byteOf, hj, hk]

/-- Every byte offset of a block lies in one of its four words. -/
theorem exists_word_and_byte {i : Nat} (h : i < 16) : ∃ j k, j < 4 ∧ k < 4 ∧ i = 4 * j + k :=
  ⟨i / 4, i % 4, by omega, by omega, by omega⟩

theorem words_bytes (x : Quad) : words (bytes x) = x := by
  refine quad_ext_words fun j hj => ?_
  calc quadWord (words (bytes x)) j
    _ = le32 (byteOf x (4 * j + 0)) (byteOf x (4 * j + 1)) (byteOf x (4 * j + 2)) (byteOf x (4 * j + 3)) :=
      quadWord_words_ofFn (byteOf x) hj
    _ = quadWord x j := by simp only [byteOf_mul_add x j, Nat.reduceLT, Nat.reduceMul, le32_extractLsb']

theorem byteOf_words_ofFn (f : Nat → Byte) {i : Nat} (h : i < 16) : byteOf (words (Block.ofFn f)) i = f i := by
  obtain ⟨j, k, hj, hk, rfl⟩ := exists_word_and_byte h
  rw [byteOf_mul_add _ j hk, quadWord_words_ofFn f hj]
  exact extractLsb'_le32 (fun n => f (4 * j + n)) hk

theorem bytes_words (b : Block) : bytes (words b) = b := by
  obtain ⟨f, rfl⟩ := Block.exists_eq_ofFn b
  exact Vector.ext fun i h => by rw [getElem_bytes _ h, byteOf_words_ofFn f h, Block.getElem_ofFn f h]

/-! ## The bits of the 128-bit value -/

/-- Word `j` is digit `j` of the 128-bit value in base `2^32` (R8). -/
theorem toNat_quadWord (x : Quad) {j : Nat} (h : j < 4) :
    (quadWord x j).toNat = val128 x / 2 ^ (32 * j) % 2 ^ 32 := by
  obtain ⟨a, b, c, d⟩ := x
  match j, h with
  | 0, _ | 1, _ | 2, _ | 3, _ => simp only [quadWord, val128]; omega

/-- Byte `i` is digit `i` of the 128-bit value in base `2^8` (R8, R52). -/
theorem toNat_byteOf (x : Quad) {i : Nat} (h : i < 16) : (byteOf x i).toNat = val128 x / 2 ^ (8 * i) % 256 := by
  obtain ⟨j, k, hj, hk, rfl⟩ := exists_word_and_byte h
  have wordSplit : 2 ^ 32 = 2 ^ (8 * k) * 2 ^ (32 - 8 * k) := by rw [← pow_add]; congr 1; omega
  have byteFits : 256 ∣ 2 ^ (32 - 8 * k) := pow_dvd_pow 2 (show 8 ≤ 32 - 8 * k by omega)
  calc (byteOf x (4 * j + k)).toNat
    _ = (quadWord x j).toNat / 2 ^ (8 * k) % 256 := by
      rw [byteOf_mul_add x j hk, BitVec.extractLsb'_toNat, Nat.shiftRight_eq_div_pow]
    _ = val128 x / 2 ^ (32 * j) % 2 ^ 32 / 2 ^ (8 * k) % 256 := by rw [toNat_quadWord x hj]
    _ = val128 x / 2 ^ (32 * j) / 2 ^ (8 * k) % 256 := by
      rw [wordSplit, Nat.mod_mul_right_div_self, Nat.mod_mod_of_dvd _ byteFits]
    _ = val128 x / 2 ^ (8 * (4 * j + k)) % 256 := by
      rw [Nat.div_div_eq_div_mul, ← pow_add]; congr 3; omega

/-- Settles O43: the two inverses, and the bits of byte `i` read off the word that holds it. -/
theorem bytesAndWordsAreInverse : Obligations.BytesAndWordsAreInverse :=
  ⟨words_bytes, bytes_words, fun x i h => by rw [getElem_bytes x h, toNat_byteOf x h]⟩

end Sys2Proof.Machine
end

section
/-! PROOF. What each command, each host transaction and each micro-operation can do, said once: the next states it can
answer, and the parts of the state that it keeps. -/

namespace Sys2Proof.Machine

/-! ## The micro-operations (42_mac_block_processor.md R140 to R145) -/

/-- The next states of one micro-operation, with the guards under which each is answered. -/
inductive MicroEffect (s : State) : State → Prop
  /-- No micro-operation is left. -/
  | idle (phase : s.phase = .idle) : MicroEffect s s
  /-- U_INIT. -/
  | init (phase : s.phase = .init) : MicroEffect s s.startAbsorb
  /-- U_ABSORB with a whole block to absorb. -/
  | absorbBlock (phase : s.phase = .absorb) (inside : s.off ≤ s.mlen) (more : 16 < s.unconsumed) :
    MicroEffect s (s.xorV (words (blockOfList (s.msgSlice s.off.toNat 16)))).permuteV.advanceOff
  /-- U_ABSORB at the trailing block. -/
  | absorbEnd (phase : s.phase = .absorb) (inside : s.off ≤ s.mlen) (tail : s.unconsumed ≤ 16) :
    MicroEffect s (s.setPhase .select)
  /-- U_SELECT on a whole trailing block. -/
  | selectWhole (phase : s.phase = .select) (inside : s.off ≤ s.mlen) (tail : s.unconsumed = 16) :
    MicroEffect s (s.selectTail (blockOfList (s.msgSlice s.off.toNat s.unconsumed)) .k1)
  /-- U_SELECT on a tail to be padded. -/
  | selectPadded (phase : s.phase = .select) (inside : s.off ≤ s.mlen) (tail : s.unconsumed < 16) :
    MicroEffect s (s.selectTail (padBlock (s.msgSlice s.off.toNat s.unconsumed)) .k2)
  /-- U_FINAL. -/
  | final (phase : s.phase = .final) :
    MicroEffect s ((((s.xorV (words s.buf)).xorV s.subkey).permuteV.xorV s.subkey).setPhase .extract)
  /-- U_EXTRACT. -/
  | extract (phase : s.phase = .extract) :
    MicroEffect s (State.toIdle (s.deliverTag (tagByte s.v s.taglen) s.taglen))

theorem eq_msgSlice_of_readMsg {s : State} {off n : Nat} {bs : List Byte} (h : s.readMsg off n = some bs) :
    bs = s.msgSlice off n := by
  unfold State.readMsg at h
  split at h
  · exact (Option.some.inj h).symm
  · cases h

theorem uAbsorb_effect {s t : State} (hp : s.phase = .absorb) (h : uAbsorb s = .next t) : MicroEffect s t := by
  unfold uAbsorb at h
  split at h
  · cases h
  next hoff =>
  split at h
  · next more =>
    split at h
    · cases h
    · next bs hbs =>
      cases h
      cases eq_msgSlice_of_readMsg hbs
      exact .absorbBlock hp (BitVec.not_lt.mp hoff) more
  · next tail =>
    cases h
    exact .absorbEnd hp (BitVec.not_lt.mp hoff) (Nat.le_of_not_lt tail)

theorem uSelect_effect {s t : State} (hp : s.phase = .select) (h : uSelect s = .next t) : MicroEffect s t := by
  unfold uSelect at h
  split at h
  · cases h
  next hoff =>
  split at h
  · cases h
  next tail =>
  split at h
  · cases h
  next bs hbs =>
  cases eq_msgSlice_of_readMsg hbs
  split at h
  · next whole => cases h; exact .selectWhole hp (BitVec.not_lt.mp hoff) whole
  · next part =>
    cases h
    exact .selectPadded hp (BitVec.not_lt.mp hoff) (lt_of_le_of_ne (Nat.le_of_not_lt tail) part)

theorem microStep_effect {s t : State} (h : microStep s = .next t) : MicroEffect s t := by
  unfold microStep at h
  split at h
  · next hp => cases h; exact .idle hp
  · next hp => cases h; exact .init hp
  · next hp => exact uAbsorb_effect hp h
  · next hp => exact uSelect_effect hp h
  · next hp => cases h; exact .final hp
  · next hp => cases h; exact .extract hp

/-! ## What a MAC command keeps -/

/-- The state without what a MAC command writes: the scratch state and the tag with its flags. -/
def State.outsideMac (s : State) : State :=
  { s with
    v := Quad.zero, buf := Block.zero, phase := .idle, off := 0, sel := .none, rnd := 0, taglen := 0,
    tag := Quad.zero, tv := false, tl := 0 }

theorem State.fields_of_outsideMac_eq {s t : State} (same : t.outsideMac = s.outsideMac) :
    t.key = s.key ∧ t.kv = s.kv ∧ t.k1 = s.k1 ∧ t.k2 = s.k2 ∧ t.skv = s.skv ∧ t.d = s.d ∧
      t.msg = s.msg ∧ t.draw = s.draw :=
  ⟨(congrArg State.key same :), (congrArg State.kv same :), (congrArg State.k1 same :), (congrArg State.k2 same :),
    (congrArg State.skv same :), (congrArg State.d same :), (congrArg State.msg same :), (congrArg State.draw same :)⟩

theorem microStep_keeps_outsideMac {s t : State} (h : microStep s = .next t) : t.outsideMac = s.outsideMac := by
  cases microStep_effect h <;> rfl

/-- What every micro-operation keeps holds in the idle state that a sequencer run ends in. -/
theorem runSequencer_induction {P : State → Prop} (micro : ∀ s t, P s → microStep s = .next t → P t) {n : Nat}
    {s u : State} (hs : P s) (h : runSequencer n s = .next u) : P u ∧ u.phase = .idle := by
  induction n generalizing s with
  | zero =>
    unfold runSequencer at h
    split at h
    · next hp => cases h; exact ⟨hs, hp⟩
    · cases h
  | succ n ih =>
    unfold runSequencer at h
    split at h
    · next hp => cases h; exact ⟨hs, hp⟩
    · split at h
      · next t ht => exact ih (micro s t hs ht) h
      · cases h
      · cases h

theorem runSequencer_keeps_outsideMac {n : Nat} {s u : State} (h : runSequencer n s = .next u) :
    u.outsideMac = s.outsideMac :=
  (runSequencer_induction (P := fun t => t.outsideMac = s.outsideMac)
    (fun _ _ kept ht => (microStep_keeps_outsideMac ht).trans kept) rfl h).1

/-! ## The commands (43_host_commands.md R163) -/

/-- The next states of a command. -/
inductive CommandEffect (s : State) : Instr → State → Prop
  /-- NOP, and every command while ERR = 1. -/
  | nothing (i : Instr) : CommandEffect s i s
  | ldkey : CommandEffect s .ldkey (s.setKey s.d)
  | derive (key : s.kv = true) : CommandEffect s .derive (s.setSubkeys (double s.key) (double (double s.key)))
  /-- DERIVE without a key. -/
  | deriveFault : CommandEffect s .derive (s.raise .noKey)
  | dbl : CommandEffect s .dbl (s.setD (double s.d))
  | perm : CommandEffect s .perm (s.setD (permute s.d))
  /-- MAC that fails one of its four checks. -/
  | macFault (n : Nat) (c : ECode) (code : c ≠ .none) : CommandEffect s (.mac n) (s.raise c)
  /-- MAC that passes them. -/
  | mac (n : Nat) (len : TagLen) (u : State) (accepted : MacAccepted s n) (legal : legalTagLen n = some len)
    (run : runSequencer (nfull s.mlen.toNat + 5) (s.acceptMac len) = .next u) : CommandEffect s (.mac n) u

/-- A command that is ignored while ERR = 1 does nothing then, and else what its action does. -/
theorem ignoredIfErr_effect {i : Instr} {s t : State} {act : State → Outcome} (h : ignoredIfErr s act = .next t)
    (ready : s.err = false → act s = .next t → CommandEffect s i t) : CommandEffect s i t := by
  obtain ⟨-, h⟩ | ⟨herr, h⟩ := ignoredIfErr_cases h
  · cases h; exact .nothing i
  · exact ready herr h.symm

theorem execLdkey_effect {s t : State} (h : execLdkey s = .next t) : CommandEffect s .ldkey t :=
  ignoredIfErr_effect h fun _ h => by cases h; exact .ldkey

theorem execDerive_effect {s t : State} (h : execDerive s = .next t) : CommandEffect s .derive t :=
  ignoredIfErr_effect h fun _ h => by
    split at h <;> cases h
    · next hk => exact .derive hk
    · exact .deriveFault

theorem execDbl_effect {s t : State} (h : execDbl s = .next t) : CommandEffect s .dbl t :=
  ignoredIfErr_effect h fun _ h => by cases h; exact .dbl

theorem execPerm_effect {s t : State} (h : execPerm s = .next t) : CommandEffect s .perm t :=
  ignoredIfErr_effect h fun _ h => by cases h; exact .perm

theorem execMac_effect {n : Nat} {s t : State} (h : execMac n s = .next t) : CommandEffect s (.mac n) t :=
  ignoredIfErr_effect h fun herr h => by
    split at h
    · cases h; exact .macFault n .tagLen (by decide)
    next len hlen =>
    split at h
    · cases h; exact .macFault n .noKey (by decide)
    next hkv =>
    split at h
    · cases h; exact .macFault n .noSubkey (by decide)
    next hskv =>
    split at h
    · cases h; exact .macFault n .mLen (by decide)
    next hfit =>
    obtain ⟨h1, h16, -⟩ := legalTagLen_eq_some.mp hlen
    exact .mac n len t ⟨herr, ⟨h1, h16⟩, by simpa using hkv, by simpa using hskv, BitVec.not_lt.mp hfit⟩ hlen h

theorem exec_effect {i : Instr} {s t : State} (h : exec i s = .next t) : CommandEffect s i t := by
  cases i with
  | nop => cases h; exact .nothing _
  | ldkey => exact execLdkey_effect h
  | derive => exact execDerive_effect h
  | dbl => exact execDbl_effect h
  | perm => exact execPerm_effect h
  | mac n => exact execMac_effect h

/-! ## The host transactions (43_host_commands.md R160) -/

/-- The next states of a host transaction. -/
inductive TxnEffect (s : State) : HostTxn → State → Prop
  | read (idx : Nat) (w : Word) : TxnEffect s (.rd idx) (s.reply w)
  /-- A write of a read-only or undefined index, an illegal command word while ERR = 1, a byte outside MSG. -/
  | ignored (x : HostTxn) : TxnEffect s x s
  | mlen (val : Word) : TxnEffect s (.wr 2 val) (s.setMlen val)
  | operand (idx : Nat) (val : Word) (lower : 4 ≤ idx) (upper : idx ≤ 7) :
    TxnEffect s (.wr idx val) (s.setD (quadSetWord s.d (idx - 4) val))
  | command (w : Word) (i : Instr) (t : State) (word : decode w = .ok i) (effect : CommandEffect s i t) :
    TxnEffect s (.wr 0 w) t
  /-- An illegal command word. -/
  | illegal (w : Word) : TxnEffect s (.wr 0 w) (s.raise .opcode)
  | message (off : Nat) (b : Byte) (inside : off < s.msgCap.toNat) :
    TxnEffect s (.msgwr off b) { s with msg := memWrite s.msg off b }
  | reset : TxnEffect s .reset s.hostReset

theorem commandWord_effect {w : Word} {s t : State} (h : commandWord w s = .next t) : TxnEffect s (.wr 0 w) t := by
  cases hw : decode w with
  | ok i =>
    rw [commandWord_ok s hw] at h
    exact .command w i t hw (exec_effect h)
  | error e =>
    rw [commandWord_error s hw] at h
    obtain ⟨-, h⟩ | ⟨-, h⟩ := ignoredIfErr_cases h <;> cases h
    exacts [.ignored _, .illegal w]

theorem writeReg_effect (s : State) (idx : Nat) (val : Word) : TxnEffect s (.wr idx val) (s.writeReg idx val) := by
  unfold State.writeReg
  split
  · next hi => subst hi; exact .mlen val
  · split
    · next hd =>
      obtain ⟨lower, upper⟩ := hd
      exact .operand idx val lower upper
    · exact .ignored _

theorem writeMsg_effect (s : State) (off : Nat) (b : Byte) : TxnEffect s (.msgwr off b) (s.writeMsg off b) := by
  obtain ⟨inside, e⟩ | ⟨-, e⟩ := writeMsg_cases s off b <;> rw [e]
  exacts [.message off b inside, .ignored _]

theorem hostTxn_effect {x : HostTxn} {s t : State} (h : hostTxn x s = .next t) : TxnEffect s x t := by
  cases x with
  | rd idx => cases h; exact .read idx _
  | wr idx val =>
    simp only [hostTxn] at h
    split at h
    · next hi => subst hi; exact commandWord_effect h
    · cases h; exact writeReg_effect s idx val
  | msgwr off b => cases h; exact writeMsg_effect s off b
  | reset => cases h; exact .reset

/-! ## The reason by which an illegal OFF stops a step -/

theorem microStep_ne_offNotBlockMultiple (s : State) : microStep s ≠ .fault .offNotBlockMultiple := by
  unfold microStep uInit uAbsorb uSelect uFinal uExtract
  repeat' split
  all_goals simp

theorem runSequencer_ne_offNotBlockMultiple (n : Nat) (s : State) :
    runSequencer n s ≠ .fault .offNotBlockMultiple := by
  induction n generalizing s with
  | zero => unfold runSequencer; split <;> simp
  | succ n ih =>
    unfold runSequencer
    split
    · simp
    · split
      · exact ih _
      · next f hf =>
        intro e
        cases e
        exact microStep_ne_offNotBlockMultiple s hf
      · simp

theorem ignoredIfErr_ne_fault {f : Fault} {s : State} {act : State → Outcome} (h : act s ≠ .fault f) :
    ignoredIfErr s act ≠ .fault f := by
  unfold ignoredIfErr
  split
  · simp
  · exact h

theorem execMac_ne_offNotBlockMultiple (n : Nat) (s : State) : execMac n s ≠ .fault .offNotBlockMultiple := by
  refine ignoredIfErr_ne_fault ?_
  split
  · simp
  next len _ =>
  have run := runSequencer_ne_offNotBlockMultiple (nfull s.mlen.toNat + 5) (s.acceptMac len)
  repeat' split
  all_goals simp [run]

theorem exec_ne_offNotBlockMultiple (i : Instr) (s : State) : exec i s ≠ .fault .offNotBlockMultiple := by
  cases i with
  | nop => simp [exec, execNop]
  | ldkey => unfold exec execLdkey; exact ignoredIfErr_ne_fault (by simp)
  | derive => unfold exec execDerive; exact ignoredIfErr_ne_fault (by split <;> simp)
  | dbl => unfold exec execDbl; exact ignoredIfErr_ne_fault (by simp)
  | perm => unfold exec execPerm; exact ignoredIfErr_ne_fault (by simp)
  | mac n => exact execMac_ne_offNotBlockMultiple n s

theorem commandWord_ne_offNotBlockMultiple (w : Word) (s : State) : commandWord w s ≠ .fault .offNotBlockMultiple := by
  cases hw : decode w with
  | ok i => rw [commandWord_ok s hw]; exact exec_ne_offNotBlockMultiple i s
  | error e => rw [commandWord_error s hw]; exact ignoredIfErr_ne_fault (by simp)

theorem hostTxn_ne_offNotBlockMultiple (x : HostTxn) (s : State) : hostTxn x s ≠ .fault .offNotBlockMultiple := by
  cases x with
  | rd idx => simp [hostTxn]
  | wr idx val =>
    simp only [hostTxn]
    split
    · exact commandWord_ne_offNotBlockMultiple val s
    · simp
  | msgwr off b => simp [hostTxn]
  | reset => simp [hostTxn]

/-- Settles O15: behind the check of OFF itself no transaction and no micro-operation stops for that reason. -/
theorem illegalOffIsStuck : Obligations.IllegalOffIsStuck := by
  intro s
  refine ⟨fun h aligned => ?_, fun misaligned => by simp [step, machineStep, misaligned]⟩
  by_cases hp : s.phase = .idle
  · rw [step_idle aligned hp] at h
    cases hq : s.pending with
    | nil => simp [portStep, hq] at h
    | cons x rest => exact hostTxn_ne_offNotBlockMultiple x _ (portStep_cons hq ▸ h)
  · exact microStep_ne_offNotBlockMultiple s (step_busy aligned hp ▸ h)

end Sys2Proof.Machine
end

section
/-! PROOF. The invariants of Safety.lean under every step: the idle invariants of 10_state.md R36, and what V, BUF, SEL
and OFF hold inside a MAC command (42_mac_block_processor.md R140 to R144). -/

namespace Sys2Proof.Machine

/-! ## The parts of the state that the invariants read -/

/-- The state with everything cleared that `DataInv` does not read. -/
def State.dataPart (s : State) : State :=
  { State.reset with
    key := s.key, k1 := s.k1, k2 := s.k2, tag := s.tag, kv := s.kv, skv := s.skv, tv := s.tv, err := s.err,
    ecode := s.ecode, tl := s.tl, msg := s.msg, msgCap := s.msgCap }

/-- The state with everything cleared that `AtRest` does not read. -/
def State.scratchPart (s : State) : State :=
  { State.reset with
    phase := s.phase, off := s.off, sel := s.sel, rnd := s.rnd, v := s.v, buf := s.buf, taglen := s.taglen }

theorem State.scratchPart_eq_iff {s t : State} :
    t.scratchPart = s.scratchPart ↔
      t.v = s.v ∧ t.buf = s.buf ∧ t.phase = s.phase ∧ t.off = s.off ∧ t.sel = s.sel ∧ t.rnd = s.rnd ∧
        t.taglen = s.taglen := by
  simp [State.scratchPart]

theorem dataInv_dataPart {s : State} : DataInv s.dataPart ↔ DataInv s :=
  ⟨fun h => ⟨h.no_key, h.subkeys, h.no_subkeys, h.tag_valid, h.no_tag, h.err_code, h.msg_form, h.msg_within⟩,
    fun h => ⟨h.no_key, h.subkeys, h.no_subkeys, h.tag_valid, h.no_tag, h.err_code, h.msg_form, h.msg_within⟩⟩

theorem atRest_scratchPart {s : State} : AtRest s.scratchPart ↔ AtRest s :=
  ⟨fun h => ⟨h.phase_idle, h.off_zero, h.sel_none, h.rnd_zero, h.v_zero, h.buf_zero, h.taglen_zero⟩,
    fun h => ⟨h.phase_idle, h.off_zero, h.sel_none, h.rnd_zero, h.v_zero, h.buf_zero, h.taglen_zero⟩⟩

theorem DataInv.of_dataPart_eq {s t : State} (h : DataInv s) (same : t.dataPart = s.dataPart) : DataInv t :=
  dataInv_dataPart.mp (same ▸ dataInv_dataPart.mpr h)

theorem AtRest.of_scratchPart_eq {s t : State} (h : AtRest s) (same : t.scratchPart = s.scratchPart) : AtRest t :=
  atRest_scratchPart.mp (same ▸ atRest_scratchPart.mpr h)

theorem IdleInv.of_parts_eq {s t : State} (h : IdleInv s) (data : t.dataPart = s.dataPart)
    (scratch : t.scratchPart = s.scratchPart) : IdleInv t :=
  ⟨h.data.of_dataPart_eq data, h.rest.of_scratchPart_eq scratch⟩

/-! ## The updates that touch the data -/

theorem DataInv.raise {s : State} (h : DataInv s) {c : ECode} (code : c ≠ .none) : DataInv (s.raise c) :=
  ⟨h.no_key, h.subkeys, h.no_subkeys, h.tag_valid, h.no_tag, by simpa using code, h.msg_form, h.msg_within⟩

theorem DataInv.setKey {s : State} (h : DataInv s) (x : Quad) : DataInv (s.setKey x) where
  no_key := by simp
  subkeys := by simp
  no_subkeys := by simp
  tag_valid := by simp
  no_tag := by simp
  err_code := h.err_code
  msg_form := h.msg_form
  msg_within := h.msg_within

/-- DERIVE stores the subkeys of KEY (R36 (c)); a valid tag stays valid. -/
theorem DataInv.setSubkeys {s : State} (h : DataInv s) (key : s.kv = true) :
    DataInv (s.setSubkeys (double s.key) (double (double s.key))) where
  no_key := by simp [key]
  subkeys := by simp [key]
  no_subkeys := by simp
  tag_valid := fun valid => ⟨rfl, (h.tag_valid valid).2⟩
  no_tag := h.no_tag
  err_code := h.err_code
  msg_form := h.msg_form
  msg_within := h.msg_within

/-- The bytes of a delivered tag at and beyond its length are zero (R36 (d)). -/
theorem DataInv.deliverTag {s : State} (h : DataInv s) (x : Quad) {n : TagLen} (valid : s.skv = true)
    (positive : 1 ≤ n.val) : DataInv (s.deliverTag (tagByte x n) n) where
  no_key := h.no_key
  subkeys := h.subkeys
  no_subkeys := h.no_subkeys
  tag_valid := fun _ => by
    refine ⟨valid, positive, Nat.le_of_lt_succ n.isLt, fun i beyond hi => ?_⟩
    have beyond : ¬ i < n.val := Nat.not_lt.mpr beyond
    rw [State.deliverTag_tag, byteOf_words_ofFn _ (Nat.lt_succ_of_le hi), tagByte, if_neg beyond]
  no_tag := by simp
  err_code := h.err_code
  msg_form := h.msg_form
  msg_within := h.msg_within

theorem DataInv.memWrite {s : State} (h : DataInv s) {off : Nat} (b : Byte) (inside : off < s.msgCap.toNat) :
    DataInv { s with msg := Machine.memWrite s.msg off b } :=
  ⟨h.no_key, h.subkeys, h.no_subkeys, h.tag_valid, h.no_tag, h.err_code, memWrite_wf off b h.msg_form,
    memWrite_within b h.msg_within inside⟩

theorem atRest_toIdle (s : State) : AtRest s.toIdle := ⟨rfl, rfl, rfl, rfl, rfl, rfl, rfl⟩

/-! ## Reset (R40) -/

theorem idleInv_hostReset (s : State) : IdleInv s.hostReset where
  data :=
    { no_key := fun _ => ⟨rfl, rfl⟩
      subkeys := nofun
      no_subkeys := fun _ => ⟨rfl, rfl⟩
      tag_valid := nofun
      no_tag := fun _ => ⟨rfl, rfl⟩
      err_code := ⟨fun _ => rfl, fun _ => rfl⟩
      msg_form := rfl
      msg_within := rfl }
  rest := ⟨rfl, rfl, rfl, rfl, rfl, rfl, rfl⟩

/-- Settles O32: the reset state has the data and the scratch state that a RESET leaves. -/
theorem resetSatisfiesTheIdleInvariants : Obligations.ResetSatisfiesTheIdleInvariants :=
  (idleInv_hostReset State.reset).of_parts_eq rfl rfl

/-! ## The functional layer over the message space -/

/-- Block `j` of the message is its sixteen bytes of MSG (20_memory.md R51). -/
theorem blockAt_message {s : State} {j : Nat} (h : 16 * j + 16 ≤ s.mlen.toNat) :
    blockAt s.message j = blockOfList (s.msgSlice (16 * j) 16) := by
  rw [blockAt_eq, drop_take_message s _ _ h]

theorem drop_message (s : State) {off : Nat} (h : off ≤ s.mlen.toNat) :
    s.message.drop off = s.msgSlice off (s.mlen.toNat - off) := by
  rw [← drop_take_message s off _ (by omega), List.take_of_length_le (by simp)]

/-- The trailing block that U_SELECT finds when sixteen bytes are left (R133, R142). -/
theorem trail_message_of_whole {s : State} {off : Nat} (start : off = 16 * nfull s.mlen.toNat)
    (whole : s.mlen.toNat - off = 16) : trail s.message = (blockOfList (s.msgSlice off 16), .k1) := by
  subst start
  have full : isfull s.mlen.toNat = true := isfull_eq_true.mpr (by omega)
  rw [trail, length_message, if_pos full, blockAt_message (by omega)]

/-- The trailing block that U_SELECT pads when fewer are left (R133, R142). -/
theorem trail_message_of_part {s : State} {off : Nat} (start : off = 16 * nfull s.mlen.toNat)
    (part : s.mlen.toNat - off < 16) :
    trail s.message = (padBlock (s.msgSlice off (s.mlen.toNat - off)), .k2) := by
  subst start
  have count := nfull_eq s.mlen.toNat
  have tail : ¬ isfull s.mlen.toNat = true := by rw [isfull_eq_true]; omega
  rw [trail, length_message, if_neg tail, BLOCK, drop_message s (by omega)]

/-- The PERM unit's run computes `permute` (41_permutation.md R118). -/
theorem permRun_x (x : Quad) : (permRun x).x = permute x := by rw [permRun, permTicks_eq, permute]

/-! ## The micro-operations of an accepted MAC command -/

section

variable {s : State}

theorem scratchInv_init (hp : s.phase = .init) : scratchInv s ↔ s.off = 0 := by rw [scratchInv, hp]

theorem scratchInv_absorb (hp : s.phase = .absorb) :
    scratchInv s ↔ s.v = absorbBlocks s.message s.key (s.off.toNat / 16) ∧ s.off.toNat / 16 ≤ nfull s.mlen.toNat := by
  rw [scratchInv, hp]

theorem scratchInv_select (hp : s.phase = .select) :
    scratchInv s ↔
      s.v = absorbBlocks s.message s.key (nfull s.mlen.toNat) ∧ s.off.toNat / 16 = nfull s.mlen.toNat := by
  rw [scratchInv, hp]

theorem scratchInv_final (hp : s.phase = .final) :
    scratchInv s ↔
      s.v = absorbBlocks s.message s.key (nfull s.mlen.toNat) ∧ (s.buf, s.sel) = trail s.message := by
  rw [scratchInv, hp]

theorem scratchInv_extract (hp : s.phase = .extract) :
    scratchInv s ↔ s.v = macState s.key s.k1 s.k2 s.message := by
  rw [scratchInv, hp]

end

theorem BusyInv.phase_ne_idle {s : State} (h : BusyInv s) : s.phase ≠ .idle := fun hp => by
  have scratch := h.scratch
  rwa [scratchInv, hp] at scratch

/-- The acceptance of a MAC command (R139). -/
theorem busyInv_acceptMac {s : State} {n : Nat} {len : TagLen} (h : IdleInv s) (acc : MacAccepted s n)
    (legal : legalTagLen n = some len) : BusyInv (s.acceptMac len) where
  data := h.data.of_dataPart_eq rfl
  accepted := ⟨acc.no_err, acc.key_valid, acc.subkeys_valid, acc.message_fits⟩
  taglen_legal := by
    obtain ⟨h1, -, hlen⟩ := legalTagLen_eq_some.mp legal
    exact hlen ▸ h1
  off_legal := by simp [h.rest.off_zero, BitVec.le_def]
  scratch := (scratchInv_init rfl).mpr h.rest.off_zero

/-- A micro-operation that keeps the data, the held TLEN and MLEN keeps the invariant, when OFF and the scratch state
are as the functional layer says. -/
theorem BusyInv.of_scratch {s t : State} (h : BusyInv s) (data : t.dataPart = s.dataPart) (mlen : t.mlen = s.mlen)
    (taglen : t.taglen = s.taglen) (off : t.off.toNat % 16 = 0 ∧ t.off ≤ t.mlen) (scratch : scratchInv t) :
    BusyInv t where
  data := h.data.of_dataPart_eq data
  accepted := by
    obtain ⟨herr, hkv, hskv, hfit⟩ := h.accepted
    exact ⟨(congrArg State.err data).trans herr, (congrArg State.kv data).trans hkv,
      (congrArg State.skv data).trans hskv, mlen ▸ (congrArg State.msgCap data).symm ▸ hfit⟩
  taglen_legal := taglen ▸ h.taglen_legal
  off_legal := off
  scratch := scratch

theorem BusyInv.startAbsorb {s : State} (h : BusyInv s) : BusyInv s.startAbsorb :=
  h.of_scratch rfl rfl rfl (by simp [BitVec.le_def]) ((scratchInv_absorb rfl).mpr (by simp [absorbBlocks]))

/-- OFF does not wrap while a whole block follows it. -/
theorem toNat_off_advanceOff {s : State} (more : 16 < s.unconsumed) :
    s.advanceOff.off.toNat = s.off.toNat + 16 := by
  have bound := s.mlen.isLt
  rw [State.unconsumed] at more
  simp only [State.advanceOff_off, BitVec.toNat_add, BitVec.reduceToNat]
  omega

/-- Before the trailing block, block `OFF / 16` of the message lies at OFF and is one of the blocks to absorb (R132). -/
theorem off_before_tail {s : State} (aligned : s.off.toNat % 16 = 0) (more : 16 < s.unconsumed) :
    s.off.toNat = 16 * (s.off.toNat / 16) ∧ 16 * (s.off.toNat / 16) + 16 ≤ s.mlen.toNat ∧
      s.off.toNat / 16 + 1 ≤ nfull s.mlen.toNat := by
  rw [State.unconsumed] at more
  rw [nfull_eq]
  omega

/-- At the trailing block all whole blocks are absorbed (R132). -/
theorem off_at_tail {s : State} (aligned : s.off.toNat % 16 = 0) (tail : s.unconsumed ≤ 16)
    (absorbed : s.off.toNat / 16 ≤ nfull s.mlen.toNat) :
    s.off.toNat / 16 = nfull s.mlen.toNat := by
  rw [State.unconsumed] at tail
  rw [nfull_eq] at absorbed ⊢
  omega

theorem BusyInv.absorbBlock {s : State} (h : BusyInv s) (hp : s.phase = .absorb) (more : 16 < s.unconsumed) :
    BusyInv (s.xorV (words (blockOfList (s.msgSlice s.off.toNat 16)))).permuteV.advanceOff := by
  obtain ⟨hv, -⟩ := (scratchInv_absorb hp).mp h.scratch
  obtain ⟨aligned, -⟩ := h.off_legal
  obtain ⟨start, fits, next⟩ := off_before_tail aligned more
  have advanced : (s.xorV (words (blockOfList (s.msgSlice s.off.toNat 16)))).permuteV.advanceOff.off.toNat =
    s.off.toNat + 16 := toNat_off_advanceOff (s := s) more
  have quotient : (s.off.toNat + 16) / 16 = s.off.toNat / 16 + 1 := by omega
  refine h.of_scratch rfl rfl rfl ⟨by omega, ?_⟩ ((scratchInv_absorb ?_).mpr ⟨?_, ?_⟩)
  · rw [BitVec.le_def, advanced]
    exact start ▸ fits
  · exact hp
  · rw [advanced, quotient]
    calc (permRun (s.v.xor (words (blockOfList (s.msgSlice s.off.toNat 16))))).x
      _ = absorb s.v (blockOfList (s.msgSlice s.off.toNat 16)) := permRun_x _
      _ = absorb (absorbBlocks s.message s.key (s.off.toNat / 16)) (blockAt s.message (s.off.toNat / 16)) := by
        rw [blockAt_message fits, ← start, hv]
  · rw [advanced, quotient]
    exact next

theorem BusyInv.absorbEnd {s : State} (h : BusyInv s) (hp : s.phase = .absorb) (tail : s.unconsumed ≤ 16) :
    BusyInv (s.setPhase .select) := by
  obtain ⟨hv, absorbed⟩ := (scratchInv_absorb hp).mp h.scratch
  obtain ⟨aligned, -⟩ := h.off_legal
  have all := off_at_tail aligned tail absorbed
  exact h.of_scratch rfl rfl rfl h.off_legal ((scratchInv_select rfl).mpr ⟨all ▸ hv, all⟩)

theorem BusyInv.selectTail {s : State} (h : BusyInv s) (hp : s.phase = .select) {b : Block} {x : Sel}
    (found : s.off.toNat = 16 * nfull s.mlen.toNat → trail s.message = (b, x)) : BusyInv (s.selectTail b x) := by
  obtain ⟨hv, all⟩ := (scratchInv_select hp).mp h.scratch
  obtain ⟨aligned, -⟩ := h.off_legal
  exact h.of_scratch rfl rfl rfl h.off_legal ((scratchInv_final rfl).mpr ⟨hv, (found (by omega)).symm⟩)

/-- U_FINAL completes the state of the MAC invocation (R134, R143). -/
theorem BusyInv.final {s : State} (h : BusyInv s) (hp : s.phase = .final) :
    BusyInv ((((s.xorV (words s.buf)).xorV s.subkey).permuteV.xorV s.subkey).setPhase .extract) := by
  obtain ⟨hv, htrail⟩ := (scratchInv_final hp).mp h.scratch
  refine h.of_scratch rfl rfl rfl h.off_legal ((scratchInv_extract rfl).mpr ?_)
  calc ((permRun ((s.v.xor (words s.buf)).xor s.subkey)).x).xor s.subkey
    _ = finalize s.v s.buf (pickSubkey s.sel s.k1 s.k2) := by rw [permRun_x]; rfl
    _ = macState s.key s.k1 s.k2 s.message := by rw [macState, ← htrail, length_message, hv]

theorem BusyInv.extract {s : State} (h : BusyInv s) :
    IdleInv (State.toIdle (s.deliverTag (tagByte s.v s.taglen) s.taglen)) := by
  obtain ⟨-, -, hskv, -⟩ := h.accepted
  exact ⟨(h.data.deliverTag s.v hskv h.taglen_legal).of_dataPart_eq rfl, atRest_toIdle _⟩

/-! ## Every step -/

theorem microStep_keeps_machineInv_of_busy {s t : State} (h : BusyInv s) (ht : microStep s = .next t) : MachineInv t := by
  cases microStep_effect ht with
  | idle hp => exact absurd hp h.phase_ne_idle
  | init => exact .inr h.startAbsorb
  | absorbBlock hp _ more => exact .inr (h.absorbBlock hp more)
  | absorbEnd hp _ tail => exact .inr (h.absorbEnd hp tail)
  | selectWhole hp _ whole =>
    exact .inr (h.selectTail hp fun start => by rw [whole, trail_message_of_whole start whole])
  | selectPadded hp _ part => exact .inr (h.selectTail hp fun start => trail_message_of_part start part)
  | final hp => exact .inr (h.final hp)
  | extract => exact .inl h.extract

theorem IdleInv.of_machineInv {s : State} (h : MachineInv s) (hp : s.phase = .idle) : IdleInv s :=
  h.resolve_right fun busy => busy.phase_ne_idle hp

/-- With the sequencer at rest there is no micro-operation, so every micro-operation keeps the machine invariant. -/
theorem microStep_keeps_machineInv {s t : State} (h : MachineInv s) (ht : microStep s = .next t) : MachineInv t := by
  obtain idle | busy := h
  · have stay : microStep s = .next s := by rw [microStep, idle.rest.phase_idle]
    cases stay.symm.trans ht
    exact .inl idle
  · exact microStep_keeps_machineInv_of_busy busy ht

/-- A command is one atomic transition from idle to idle (10_state.md R20, R36). -/
theorem CommandEffect.idleInv {i : Instr} {s t : State} (effect : CommandEffect s i t) (h : IdleInv s) : IdleInv t := by
  cases effect with
  | nothing => exact h
  | ldkey => exact ⟨h.data.setKey s.d, h.rest.of_scratchPart_eq rfl⟩
  | derive key => exact ⟨h.data.setSubkeys key, h.rest.of_scratchPart_eq rfl⟩
  | deriveFault => exact ⟨h.data.raise (by decide), h.rest.of_scratchPart_eq rfl⟩
  | dbl => exact h.of_parts_eq rfl rfl
  | perm => exact h.of_parts_eq rfl rfl
  | macFault n c code => exact ⟨h.data.raise code, h.rest.of_scratchPart_eq rfl⟩
  | mac n len u accepted legal run =>
    obtain ⟨inv, hp⟩ := runSequencer_induction (P := MachineInv) (fun _ _ => microStep_keeps_machineInv)
      (.inr (busyInv_acceptMac h accepted legal)) run
    exact .of_machineInv inv hp

theorem TxnEffect.idleInv {x : HostTxn} {s t : State} (effect : TxnEffect s x t) (h : IdleInv s) : IdleInv t := by
  cases effect with
  | read => exact h.of_parts_eq rfl rfl
  | ignored => exact h
  | mlen => exact h.of_parts_eq rfl rfl
  | operand => exact h.of_parts_eq rfl rfl
  | command w i u _ effect => exact effect.idleInv h
  | illegal => exact ⟨h.data.raise (by decide), h.rest.of_scratchPart_eq rfl⟩
  | message off b inside => exact ⟨h.data.memWrite b inside, h.rest.of_scratchPart_eq rfl⟩
  | reset => exact idleInv_hostReset s

/-- Settles O33: at rest a step is a transaction or nothing, and taking it from the list touches no part of the
invariants. -/
theorem stepKeepsTheIdleInvariants : Obligations.StepKeepsTheIdleInvariants := by
  intro s t h ht
  obtain ⟨-, -, rfl⟩ | ⟨-, x, rest, -, ht⟩ | ⟨hp, -⟩ := step_cases ht
  · exact h
  · exact (hostTxn_effect ht).idleInv (h.of_parts_eq rfl rfl)
  · exact absurd h.rest.phase_idle hp

/-- Settles O34: an idle core by O33, and inside a MAC command a step is one micro-operation. -/
theorem stepKeepsTheMachineInvariant : Obligations.StepKeepsTheMachineInvariant := by
  rintro s t (idle | busy) ht
  · exact .inl (stepKeepsTheIdleInvariants s t idle ht)
  · obtain ⟨hp, -⟩ | ⟨hp, -⟩ | ⟨-, ht⟩ := step_cases ht
    · exact absurd hp busy.phase_ne_idle
    · exact absurd hp busy.phase_ne_idle
    · exact microStep_keeps_machineInv_of_busy busy ht

end Sys2Proof.Machine
end

section
/-! PROOF. What every command and every transaction leaves unchanged, and the words by which the host reaches each
register (10_state.md R21 to R27, R31). -/

namespace Sys2Proof.Machine

/-! ## The word of a command (30_encoding.md R71, R72) -/

/-- A word is its three fields. -/
theorem word_eq_fields (w : Word) : w = fieldOp w ++ fieldRsv w ++ fieldTlen w := by
  rw [fieldOp, fieldRsv, fieldTlen, BitVec.extractLsb'_append_extractLsb'_eq_extractLsb' (show 28 = 5 + 23 from rfl),
    BitVec.extractLsb'_append_extractLsb'_eq_extractLsb' (show 5 = 0 + 5 from rfl)]
  exact BitVec.extractLsb'_eq_self.symm

theorem word_of_decodeFixed {w : Word} {i j : Instr} {k : Nat} (op : (fieldOp w).toNat = k)
    (h : decodeFixed w i = .ok j) : j = i ∧ w = BitVec.ofNat 4 k ++ (0 : BitVec 23) ++ (0 : BitVec 5) := by
  have hop : fieldOp w = BitVec.ofNat 4 k := by rw [← op, BitVec.ofNat_toNat, BitVec.setWidth_eq]
  unfold decodeFixed at h
  split at h
  · next zero =>
    obtain ⟨hrsv, htlen⟩ := zero
    cases h
    refine ⟨rfl, ?_⟩
    calc w
      _ = fieldOp w ++ fieldRsv w ++ fieldTlen w := word_eq_fields w
      _ = BitVec.ofNat 4 k ++ (0 : BitVec 23) ++ (0 : BitVec 5) := by rw [hop, hrsv, htlen]
  · cases h

theorem mac_word (t : BitVec 5) : 5#4 ++ 0#23 ++ t = 0x50000000 ||| BitVec.ofNat 32 t.toNat := by
  decide +revert

/-- A word that decodes is the word of its command. -/
theorem word_of_decode {w : Word} {i : Instr} (h : decode w = .ok i) : w = encode i ∧ i.wf = true := by
  unfold decode at h
  split at h
  case h_1 op | h_2 op | h_3 op | h_4 op | h_5 op =>
    obtain ⟨rfl, rfl⟩ := word_of_decodeFixed op h
    exact ⟨rfl, rfl⟩
  case h_6 op =>
    split at h
    · next hrsv =>
      cases h
      have hop : fieldOp w = 5#4 := BitVec.eq_of_toNat_eq op
      refine ⟨?_, decide_eq_true (fieldTlen w).isLt⟩
      calc w
        _ = fieldOp w ++ fieldRsv w ++ fieldTlen w := word_eq_fields w
        _ = encode (.mac (fieldTlen w).toNat) := by rw [hop, hrsv]; exact mac_word _
    · cases h
  · cases h

/-! ## What a command keeps -/

/-- The part of the state that no command changes: MLEN, MSG, the capacity and the host's lists. -/
def State.hostPart (s : State) : State :=
  { State.reset with
    mlen := s.mlen, msg := s.msg, draw := s.draw, msgCap := s.msgCap, pending := s.pending, replies := s.replies }

theorem State.hostPart_eq_iff {s t : State} :
    t.hostPart = s.hostPart ↔
      t.mlen = s.mlen ∧ t.msg = s.msg ∧ t.msgCap = s.msgCap ∧ t.draw = s.draw ∧ t.pending = s.pending ∧
        t.replies = s.replies := by
  simp [State.hostPart]

section

variable {i : Instr} {s t : State}

theorem CommandEffect.hostPart_eq (effect : CommandEffect s i t) : t.hostPart = s.hostPart := by
  cases effect with
  | mac n len u _ _ run => exact (congrArg State.hostPart (runSequencer_keeps_outsideMac run) :)
  | _ => rfl

theorem CommandEffect.key_eq (effect : CommandEffect s i t) (ldkey : i ≠ .ldkey) : t.key = s.key ∧ t.kv = s.kv := by
  cases effect with
  | ldkey => exact absurd rfl ldkey
  | mac n len u _ _ run =>
    obtain ⟨key, kv, -⟩ := State.fields_of_outsideMac_eq (runSequencer_keeps_outsideMac run)
    exact ⟨key, kv⟩
  | _ => exact ⟨rfl, rfl⟩

theorem CommandEffect.subkeys_eq (effect : CommandEffect s i t) (ldkey : i ≠ .ldkey) (derive : i ≠ .derive) :
    t.k1 = s.k1 ∧ t.k2 = s.k2 ∧ t.skv = s.skv := by
  cases effect with
  | ldkey => exact absurd rfl ldkey
  | derive => exact absurd rfl derive
  | mac n len u _ _ run =>
    obtain ⟨-, -, k1, k2, skv, -⟩ := State.fields_of_outsideMac_eq (runSequencer_keeps_outsideMac run)
    exact ⟨k1, k2, skv⟩
  | _ => exact ⟨rfl, rfl, rfl⟩

theorem CommandEffect.d_eq (effect : CommandEffect s i t) (dbl : i ≠ .dbl) (perm : i ≠ .perm) : t.d = s.d := by
  cases effect with
  | dbl => exact absurd rfl dbl
  | perm => exact absurd rfl perm
  | mac n len u _ _ run =>
    obtain ⟨-, -, -, -, -, d, -⟩ := State.fields_of_outsideMac_eq (runSequencer_keeps_outsideMac run)
    exact d
  | _ => rfl

/-- Only MAC uses the scratch state, and a MAC command that fails a check does not either. -/
theorem CommandEffect.scratchPart_eq (effect : CommandEffect s i t) (mac : ∀ n, i ≠ .mac n) :
    t.scratchPart = s.scratchPart := by
  cases effect with
  | mac n => exact absurd rfl (mac n)
  | _ => rfl

theorem CommandEffect.tag_eq (effect : CommandEffect s i t) (ldkey : i ≠ .ldkey) (mac : ∀ n, i ≠ .mac n) :
    t.tag = s.tag ∧ t.tv = s.tv ∧ t.tl = s.tl := by
  cases effect with
  | ldkey => exact absurd rfl ldkey
  | mac n => exact absurd rfl (mac n)
  | _ => exact ⟨rfl, rfl, rfl⟩

theorem CommandEffect.err_eq (effect : CommandEffect s i t) (derive : i ≠ .derive) (mac : ∀ n, i ≠ .mac n) :
    t.err = s.err ∧ t.ecode = s.ecode := by
  cases effect with
  | deriveFault => exact absurd rfl derive
  | macFault n => exact absurd rfl (mac n)
  | mac n => exact absurd rfl (mac n)
  | _ => exact ⟨rfl, rfl⟩

theorem CommandEffect.msgByte_eq (effect : CommandEffect s i t) (a : Nat) : t.msgByte a = s.msgByte a := by
  obtain ⟨-, msg, -, draw, -⟩ := State.hostPart_eq_iff.mp effect.hostPart_eq
  exact msgByte_congr msg draw a

end

/-- Settles O22: the frame of each register, read off the next states that the command can answer. -/
theorem commandFrame : Obligations.CommandFrame := by
  intro i s t h
  have effect := exec_effect h
  obtain ⟨mlen, msg, msgCap, draw, pending, replies⟩ := State.hostPart_eq_iff.mp effect.hostPart_eq
  exact ⟨mlen, msg, effect.msgByte_eq, draw, msgCap, pending, replies, effect.key_eq, effect.subkeys_eq, effect.d_eq,
    fun mac => State.scratchPart_eq_iff.mp (effect.scratchPart_eq mac), effect.tag_eq, effect.err_eq⟩

/-! ## The transactions that write each register -/

section

variable {x : HostTxn} {s t : State}

theorem TxnEffect.writer_of_key (effect : TxnEffect s x t) (changed : t.key ≠ s.key) :
    x = .wr 0 0x10000000 ∨ x = .reset := by
  cases effect with
  | command w i _ word effect =>
    have ldkey : i = .ldkey := by_contra fun other => changed (effect.key_eq other).1
    rw [(word_of_decode word).1, ldkey]
    exact .inl rfl
  | reset => exact .inr rfl
  | _ => exact absurd rfl changed

theorem TxnEffect.writer_of_subkeys (effect : TxnEffect s x t) (changed : t.k1 ≠ s.k1 ∨ t.k2 ≠ s.k2) :
    x = .wr 0 0x10000000 ∨ x = .wr 0 0x20000000 ∨ x = .reset := by
  cases effect with
  | command w i _ word effect =>
    have writer : i = .ldkey ∨ i = .derive := by
      by_contra other
      obtain ⟨ldkey, derive⟩ := not_or.mp other
      obtain ⟨k1, k2, -⟩ := effect.subkeys_eq ldkey derive
      exact changed.elim (absurd k1) (absurd k2)
    rw [(word_of_decode word).1]
    obtain rfl | rfl := writer
    exacts [.inl rfl, .inr (.inl rfl)]
  | reset => exact .inr (.inr rfl)
  | _ => exact changed.elim (absurd rfl) (absurd rfl)

theorem TxnEffect.writer_of_d (effect : TxnEffect s x t) (changed : t.d ≠ s.d) :
    x = .wr 0 0x30000000 ∨ x = .wr 0 0x40000000 ∨ (∃ idx val, 4 ≤ idx ∧ idx ≤ 7 ∧ x = .wr idx val) ∨ x = .reset := by
  cases effect with
  | command w i _ word effect =>
    have writer : i = .dbl ∨ i = .perm := by
      by_contra other
      obtain ⟨dbl, perm⟩ := not_or.mp other
      exact changed (effect.d_eq dbl perm)
    rw [(word_of_decode word).1]
    obtain rfl | rfl := writer
    exacts [.inl rfl, .inr (.inl rfl)]
  | operand idx val lower upper => exact .inr (.inr (.inl ⟨idx, val, lower, upper, rfl⟩))
  | reset => exact .inr (.inr (.inr rfl))
  | _ => exact absurd rfl changed

theorem TxnEffect.writer_of_tag (effect : TxnEffect s x t) (changed : t.tag ≠ s.tag) :
    x = .wr 0 0x10000000 ∨ (∃ n, n < 32 ∧ x = .wr 0 (0x50000000 ||| BitVec.ofNat 32 n)) ∨ x = .reset := by
  cases effect with
  | command w i _ word effect =>
    have writer : i = .ldkey ∨ ∃ n, i = .mac n := by
      by_contra other
      obtain ⟨ldkey, mac⟩ := not_or.mp other
      exact changed (effect.tag_eq ldkey (not_exists.mp mac)).1
    obtain ⟨hw, wf⟩ := word_of_decode word
    obtain rfl | ⟨n, rfl⟩ := writer
    · exact .inl (hw ▸ rfl)
    · exact .inr (.inl ⟨n, of_decide_eq_true wf, hw ▸ rfl⟩)
  | reset => exact .inr (.inr rfl)
  | _ => exact absurd rfl changed

theorem TxnEffect.writer_of_mlen (effect : TxnEffect s x t) (changed : t.mlen ≠ s.mlen) :
    (∃ val, x = .wr 2 val) ∨ x = .reset := by
  cases effect with
  | mlen val => exact .inl ⟨val, rfl⟩
  | command w i _ _ effect =>
    obtain ⟨mlen, -⟩ := State.hostPart_eq_iff.mp effect.hostPart_eq
    exact absurd mlen changed
  | reset => exact .inr rfl
  | _ => exact absurd rfl changed

/-- A transaction leaves the byte at `a` alone unless it is a RESET or a MSGWR to `a`. -/
theorem TxnEffect.msgByte_eq (effect : TxnEffect s x t) {a : Nat} (reset : x ≠ .reset) (write : ∀ b, x ≠ .msgwr a b) :
    t.msgByte a = s.msgByte a := by
  cases effect with
  | command w i _ _ effect => exact effect.msgByte_eq a
  | message off b _ =>
    have other : a ≠ off := fun same => write b (same ▸ rfl)
    simp only [State.msgByte, memRead_memWrite_other s.msg b other]
  | reset => exact absurd rfl reset
  | _ => rfl

end

/-- Settles O28: nothing changes with nothing waiting, and else the register's writers are those of the transaction. -/
theorem registersChangeOnlyByTheirWriters : Obligations.RegistersChangeOnlyByTheirWriters := by
  intro s t hp ht
  obtain ⟨-, -, rfl⟩ | ⟨-, x, rest, hq, ht⟩ | ⟨busy, -⟩ := step_cases ht
  · simp
  · have effect := hostTxn_effect ht
    simp only [hq, List.head?_cons, Option.some.injEq]
    exact ⟨effect.writer_of_key, effect.writer_of_subkeys, effect.writer_of_d, effect.writer_of_tag,
      effect.writer_of_mlen⟩
  · exact absurd hp busy

/-- Settles O29: the transaction by `TxnEffect.msgByte_eq`; a micro-operation writes no message byte. -/
theorem messageBytesChangeOnlyByTheHost : Obligations.MessageBytesChangeOnlyByTheHost := by
  intro s t a ht reset write
  obtain ⟨-, -, rfl⟩ | ⟨-, x, rest, hq, ht⟩ | ⟨-, ht⟩ := step_cases ht
  · rfl
  · simp only [hq, List.head?_cons, ne_eq, Option.some.injEq] at reset write
    exact (hostTxn_effect ht).msgByte_eq reset write
  · obtain ⟨-, -, -, -, -, -, msg, draw⟩ := State.fields_of_outsideMac_eq (microStep_keeps_outsideMac ht)
    exact msgByte_congr msg draw a

end Sys2Proof.Machine
end

section
/-! PROOF. The host's view of the registers: what an RD reads after a WR (43_host_commands.md R161, R162), the fields of
STATUS (10_state.md R29), the values after reset (R40), and the step that runs a command word (R163). -/

namespace Sys2Proof.Machine

/-! ## Reading a register after a write -/

theorem quadWord_quadSetWord (x : Quad) (w : Word) {i j : Nat} (hi : i < NWORDS) (hj : j < NWORDS) :
    quadWord (quadSetWord x i w) j = if j = i then w else quadWord x j := by
  match i, hi with
  | 0, _ | 1, _ | 2, _ | 3, _ =>
    match j, hj with
    | 0, _ | 1, _ | 2, _ | 3, _ => rfl

theorem readReg_d (s : State) {j : Nat} (lower : 4 ≤ j) (upper : j ≤ 7) : s.readReg j = quadWord s.d (j - 4) := by
  rw [State.readReg, if_neg (by omega), if_neg (by omega), if_neg (by omega), if_neg (by omega), if_pos upper]

theorem readReg_setD_other (s : State) (x : Quad) {j : Nat} (other : ¬ (4 ≤ j ∧ j ≤ 7)) :
    (s.setD x).readReg j = s.readReg j := by
  have status : (s.setD x).status = s.status := rfl
  simp only [State.readReg, status, State.setD_mlen, State.setD_k1, State.setD_k2, State.setD_tag]
  grind

theorem readReg_setMlen (s : State) (val : Word) (j : Nat) :
    (s.setMlen val).readReg j = if j = 2 then val else s.readReg j := by
  split
  · next hj => subst hj; rfl
  · next hj => simp only [State.readReg, if_neg hj]; rfl

/-- A write of one word of D shows at its own index only. -/
theorem readReg_setD_setWord (s : State) (val : Word) {i : Nat} (lower : 4 ≤ i) (upper : i ≤ 7) (j : Nat) :
    (s.setD (quadSetWord s.d (i - 4) val)).readReg j = if j = i then val else s.readReg j := by
  by_cases hd : 4 ≤ j ∧ j ≤ 7
  · obtain ⟨hj4, hj7⟩ := hd
    have sameWord : j - 4 = i - 4 ↔ j = i := by omega
    rw [readReg_d _ hj4 hj7, readReg_d _ hj4 hj7, State.setD_d,
      quadWord_quadSetWord _ _ (Nat.sub_lt_left_of_lt_add lower (Nat.lt_succ_of_le upper))
        (Nat.sub_lt_left_of_lt_add hj4 (Nat.lt_succ_of_le hj7))]
    simp only [sameWord]
  · have other : j ≠ i := fun same => hd (same ▸ ⟨lower, upper⟩)
    rw [readReg_setD_other s _ hd, if_neg other]

/-- Settles O10: MLEN by `readReg_setMlen`, a word of D by `readReg_setD_setWord`, and every other
index takes no value. -/
theorem readAfterWriteOfARegister : Obligations.ReadAfterWriteOfARegister := by
  intro s i j val
  unfold State.writeReg
  split
  · next hi => subst hi; simp [readReg_setMlen]
  split
  · next hd =>
    obtain ⟨lower, upper⟩ := hd
    have writable : i = 2 ∨ i = 4 ∨ i = 5 ∨ i = 6 ∨ i = 7 := by omega
    rw [readReg_setD_setWord s val lower upper]
    simp only [writable, and_true]
  · have readOnly : ¬ (i = 2 ∨ i = 4 ∨ i = 5 ∨ i = 6 ∨ i = 7) := by omega
    simp only [readOnly, and_false, if_false]

/-! ## STATUS -/

/-- A tag length has five bits (R75). -/
theorem tagLen_lt (n : TagLen) : n.val < 2 ^ 5 := n.isLt.trans (by decide)

theorem testBit_tagLen (n : TagLen) {k : Nat} (h : 5 ≤ k) : n.val.testBit k = false :=
  Nat.testBit_lt_two_pow ((tagLen_lt n).trans_le (Nat.pow_le_pow_right (by decide) h))

theorem getLsbD_flagWord (b : Bool) (i : Nat) : (flagWord b).getLsbD i = (decide (i = 0) && b) := by
  cases b <;> simp [flagWord]

/-- STATUS bit by bit (R29). -/
theorem getLsbD_status (s : State) (i : Nat) : s.status.getLsbD i =
    if i = 0 then s.kv else if i = 1 then s.skv else if i = 2 then s.tv else if i = 3 then s.err
    else if i < 8 then (ecodeCode s.ecode).getLsbD (i - 4) else s.tl.val.testBit (i - 8) := by
  simp only [State.status, BitVec.getLsbD_or, BitVec.getLsbD_shiftLeft, getLsbD_flagWord,
    BitVec.getLsbD_setWidth, BitVec.getLsbD_ofNat]
  match i with
  | 0 | 1 | 2 | 3 | 4 | 5 | 6 | 7 => simp
  | k + 8 =>
    by_cases inside : k + 8 < 32
    · simp [inside, show k < 32 by omega]
    · simp [inside, testBit_tagLen s.tl (show 5 ≤ k by omega)]

theorem getLsbD_status_ecode (s : State) {i : Nat} (hi : i < 4) :
    s.status.getLsbD (4 + i) = (ecodeCode s.ecode).getLsbD i := by
  rw [getLsbD_status, if_neg (by omega), if_neg (by omega), if_neg (by omega), if_neg (by omega), if_pos (by omega),
    Nat.add_sub_cancel_left]

theorem getLsbD_status_tl (s : State) (i : Nat) : s.status.getLsbD (8 + i) = s.tl.val.testBit i := by
  rw [getLsbD_status, if_neg (by omega), if_neg (by omega), if_neg (by omega), if_neg (by omega), if_neg (by omega),
    Nat.add_sub_cancel_left]

theorem extractLsb'_one {n : Nat} (x : BitVec n) (i : Nat) : x.extractLsb' i 1 = BitVec.ofBool (x.getLsbD i) := by
  ext j hj
  simp [show j = 0 by omega]

/-- Settles O36: each field bit by bit from `getLsbD_status`. -/
theorem statusShowsTheFlags : Obligations.StatusShowsTheFlags := by
  intro s
  refine ⟨?_, ?_, ?_, ?_, ?_, ?_, ?_, fun _ => rfl⟩
  · rw [extractLsb'_one, getLsbD_status]; rfl
  · rw [extractLsb'_one, getLsbD_status]; rfl
  · rw [extractLsb'_one, getLsbD_status]; rfl
  · rw [extractLsb'_one, getLsbD_status]; rfl
  · refine BitVec.eq_of_getLsbD_eq fun i hi => ?_
    rw [BitVec.getLsbD_extractLsb', getLsbD_status_ecode s hi, decide_eq_true hi, Bool.true_and]
  · have field : s.status.extractLsb' 8 5 = BitVec.ofNat 5 s.tl.val := BitVec.eq_of_getLsbD_eq fun i hi => by
      rw [BitVec.getLsbD_extractLsb', getLsbD_status_tl, BitVec.getLsbD_ofNat]
    rw [field, BitVec.toNat_ofNat, Nat.mod_eq_of_lt (tagLen_lt s.tl)]
  · refine BitVec.eq_of_getLsbD_eq fun i hi => ?_
    rw [BitVec.getLsbD_extractLsb', show 13 + i = 8 + (5 + i) by omega, getLsbD_status_tl,
      testBit_tagLen s.tl (Nat.le_add_right 5 i), Bool.and_false]
    exact BitVec.getLsbD_zero.symm

/-! ## Reset and the command port -/

/-- Settles O6: the transaction is taken from the list and its word is dispatched. -/
theorem stepRunsTheDecodedCommand : Obligations.StepRunsTheDecodedCommand := by
  intro s w rest i port word
  calc step s
    _ = portStep s := step_idle port.off_legal port.phase_idle
    _ = hostTxn (.wr 0 w) (s.setPending rest) := portStep_cons port.head
    _ = exec i (s.setPending rest) := commandWord_ok _ word

/-- A MAC command of legal length without a key raises Fault(E_NOKEY) (60_exceptions.md R183). -/
theorem exec_mac_noKey {s : State} {n : Nat} (ready : s.err = false) (legal : 1 ≤ n ∧ n ≤ 16) (key : s.kv = false) :
    exec (.mac n) s = .next (s.raise .noKey) := by
  obtain ⟨lower, upper⟩ := legal
  have len : legalTagLen n = some ⟨n, Nat.lt_succ_of_le upper⟩ := legalTagLen_eq_some.mpr ⟨lower, upper, rfl⟩
  simp [exec, execMac, ignoredIfErr_ready _ ready, len, key]

/-- Settles O31: the fields by definition, the faults because the reset state has no key. -/
theorem resetValues : Obligations.ResetValues :=
  ⟨rfl, rfl, rfl, rfl, rfl, rfl, rfl, rfl, rfl, rfl, rfl, rfl, rfl, rfl, rfl, rfl, rfl, rfl, rfl, rfl,
    fun _ lower upper => exec_mac_noKey rfl ⟨lower, upper⟩ rfl⟩

end Sys2Proof.Machine
end

section
/-! PROOF. A MAC command reads no byte of MSG at or beyond MLEN (20_memory.md R55): every read of the sequencer lies in
the message, so an exchange of the other bytes commutes with each micro-operation and with the whole command. -/

namespace Sys2Proof.Machine

/-! ## The exchange of the written bytes of MSG -/

/-- The state with other written bytes. -/
def State.withMsg (s : State) (m : Memory) : State := { s with msg := m }

/-- The outcome with other written bytes in its next state. -/
def outcomeWithMsg (m : Memory) : Outcome → Outcome
  | .next t => .next (t.withMsg m)
  | .fault f => .fault f
  | .refused r => .refused r

/-- The exchange keeps the message, `MSG[0 .. MLEN-1]` (20_memory.md R51). -/
def SameMessage (m : Memory) (s : State) : Prop := ∀ a, a < s.mlen.toNat → (s.withMsg m).msgByte a = s.msgByte a

section

variable (s : State) (m : Memory)

@[simp] theorem State.withMsg_msgCap : (s.withMsg m).msgCap = s.msgCap := rfl
@[simp] theorem State.withMsg_off : (s.withMsg m).off = s.off := rfl
@[simp] theorem State.withMsg_phase : (s.withMsg m).phase = s.phase := rfl
@[simp] theorem State.withMsg_unconsumed : (s.withMsg m).unconsumed = s.unconsumed := rfl

end

section

variable {m : Memory} {s t : State}

/-- What a MAC command keeps includes all that the message is read from. -/
theorem SameMessage.of_outsideMac_eq (same : SameMessage m s) (kept : t.outsideMac = s.outsideMac) :
    SameMessage m t := fun a ha => by
  have mlen : t.mlen = s.mlen := (congrArg State.mlen kept :)
  obtain ⟨-, -, -, -, -, -, msg, draw⟩ := State.fields_of_outsideMac_eq kept
  calc (t.withMsg m).msgByte a
    _ = (s.withMsg m).msgByte a := msgByte_congr (s := s.withMsg m) (t := t.withMsg m) rfl draw a
    _ = s.msgByte a := same a (mlen ▸ ha)
    _ = t.msgByte a := (msgByte_congr msg draw a).symm

/-- A read inside the message does not see the exchange. -/
theorem readMsg_withMsg (same : SameMessage m s) {off n : Nat} (inside : off + n ≤ s.mlen.toNat) :
    (s.withMsg m).readMsg off n = s.readMsg off n := by
  have slice : (s.withMsg m).msgSlice off n = s.msgSlice off n :=
    List.map_congr_left fun i hi => same (off + i) (by have := List.mem_range.mp hi; omega)
  simp only [State.readMsg, State.withMsg_msgCap, slice]

/-- The unconsumed bytes are the message from OFF on (42_mac_block_processor.md R141, R142). -/
theorem off_add_unconsumed (inside : s.off ≤ s.mlen) : s.off.toNat + s.unconsumed = s.mlen.toNat :=
  Nat.add_sub_cancel' inside

/-- A branch on a guard that reads nothing of MSG commutes with the exchange when both its sides do. -/
theorem ite_withMsg {p : Prop} [Decidable p] {x x' y y' : Outcome} (pos : p → x' = outcomeWithMsg m x)
    (neg : ¬ p → y' = outcomeWithMsg m y) : (if p then x' else y') = outcomeWithMsg m (if p then x else y) := by
  split
  · next h => exact pos h
  · next h => exact neg h

/-! ## The micro-operations (42_mac_block_processor.md R140 to R145) -/

/-- U_ABSORB reads a block only while more than a block is unconsumed. -/
theorem uAbsorb_withMsg (same : SameMessage m s) : uAbsorb (s.withMsg m) = outcomeWithMsg m (uAbsorb s) := by
  refine ite_withMsg (fun _ => rfl) fun inside => ite_withMsg (fun more => ?_) fun _ => rfl
  have total : s.off.toNat + s.unconsumed = s.mlen.toNat := off_add_unconsumed (BitVec.not_lt.mp inside)
  have block : s.off.toNat + BLOCK ≤ s.mlen.toNat := total ▸ Nat.add_le_add_left (Nat.le_of_lt more) _
  rw [State.withMsg_off, readMsg_withMsg same block]
  cases s.readMsg s.off.toNat BLOCK <;> rfl

/-- U_SELECT reads exactly the unconsumed bytes. -/
theorem uSelect_withMsg (same : SameMessage m s) : uSelect (s.withMsg m) = outcomeWithMsg m (uSelect s) := by
  refine ite_withMsg (fun _ => rfl) fun inside => ite_withMsg (fun _ => rfl) fun _ => ?_
  have total : s.off.toNat + s.unconsumed = s.mlen.toNat := off_add_unconsumed (BitVec.not_lt.mp inside)
  rw [State.withMsg_off, State.withMsg_unconsumed, readMsg_withMsg same total.le]
  cases s.readMsg s.off.toNat s.unconsumed with
  | none => rfl
  | some bs => exact ite_withMsg (fun _ => rfl) fun _ => rfl

theorem microStep_withMsg (same : SameMessage m s) : microStep (s.withMsg m) = outcomeWithMsg m (microStep s) := by
  simp only [microStep, State.withMsg_phase]
  cases s.phase with
  | absorb => exact uAbsorb_withMsg same
  | select => exact uSelect_withMsg same
  | idle | init | final | extract => rfl

theorem runSequencer_withMsg (same : SameMessage m s) (n : Nat) :
    runSequencer n (s.withMsg m) = outcomeWithMsg m (runSequencer n s) := by
  induction n generalizing s with
  | zero => exact ite_withMsg (fun _ => rfl) fun _ => rfl
  | succ n ih =>
    refine ite_withMsg (fun _ => rfl) fun _ => ?_
    rw [microStep_withMsg same]
    cases ht : microStep s with
    | next t => exact ih (same.of_outsideMac_eq (microStep_keeps_outsideMac ht))
    | fault f => rfl
    | refused r => rfl

/-! ## The command (42_mac_block_processor.md R139) -/

/-- The four checks read nothing of MSG, and the accepted command is a sequencer run. -/
theorem execMac_withMsg (same : SameMessage m s) (n : Nat) :
    execMac n (s.withMsg m) = outcomeWithMsg m (execMac n s) := by
  refine ite_withMsg (fun _ => rfl) fun _ => ?_
  cases legalTagLen n with
  | none => rfl
  | some len =>
    have run := runSequencer_withMsg (s := s.acceptMac len) (same.of_outsideMac_eq rfl) (nfull s.mlen.toNat + 5)
    exact ite_withMsg (fun _ => rfl) fun _ =>
      ite_withMsg (fun _ => rfl) fun _ =>
      ite_withMsg (fun _ => rfl) fun _ => run

end

/-- Settles O55: the exchange of the bytes beyond the message commutes with the command. -/
theorem bytesBeyondTheMessageAreNotRead : Obligations.BytesBeyondTheMessageAreNotRead := by
  intro s u m n same run
  calc execMac n (s.withMsg m)
    _ = outcomeWithMsg m (execMac n s) := execMac_withMsg same n
    _ = .next (u.withMsg m) := congrArg (outcomeWithMsg m) run

end Sys2Proof.Machine
end

section
/-! PROOF. The command word (30_encoding.md R70 to R74): decoding and encoding are inverse to each other, the rows of
the opcode map, and the illegal words. -/

namespace Sys2Proof.Machine

/-! ## The fields of a word that is put together from three fields (R71) -/

section
variable (op : BitVec 4) (rsv : BitVec 23) (t : BitVec 5)

theorem fieldOp_append : fieldOp (op ++ rsv ++ t) = op := by
  rw [fieldOp, BitVec.extractLsb'_append_eq_of_le (by decide)]
  exact BitVec.extractLsb'_append_eq_left

theorem fieldRsv_append : fieldRsv (op ++ rsv ++ t) = rsv := by
  rw [fieldRsv, BitVec.extractLsb'_append_eq_of_le (by decide)]
  exact BitVec.extractLsb'_append_eq_right

theorem fieldTlen_append : fieldTlen (op ++ rsv ++ t) = t :=
  BitVec.extractLsb'_append_eq_right

theorem append_fields_inj (op' : BitVec 4) (rsv' : BitVec 23) (t' : BitVec 5) :
    op ++ rsv ++ t = op' ++ rsv' ++ t' ↔ op = op' ∧ rsv = rsv' ∧ t = t' := by
  constructor
  · intro same
    refine ⟨?_, ?_, ?_⟩
    · simpa only [fieldOp_append] using congrArg fieldOp same
    · simpa only [fieldRsv_append] using congrArg fieldRsv same
    · simpa only [fieldTlen_append] using congrArg fieldTlen same
  · rintro ⟨rfl, rfl, rfl⟩
    rfl

end

/-- The operand bits w[27:0] are RSV and TLEN. -/
theorem operand_eq_fields (w : Word) : w.extractLsb' 0 28 = fieldRsv w ++ fieldTlen w := by
  rw [fieldRsv, fieldTlen, BitVec.extractLsb'_append_extractLsb'_eq_extractLsb' (show 5 = 0 + 5 from rfl)]

theorem operand_eq_zero_iff (w : Word) : w.extractLsb' 0 28 = 0 ↔ fieldRsv w = 0 ∧ fieldTlen w = 0 := by
  rw [operand_eq_fields]
  constructor
  · intro zero
    have word : 0#4 ++ fieldRsv w ++ fieldTlen w = 0#4 ++ 0#23 ++ 0#5 := by
      rw [BitVec.append_assoc, zero]; rfl
    obtain ⟨_, rsv, tlen⟩ := (append_fields_inj ..).mp word
    exact ⟨rsv, tlen⟩
  · rintro ⟨rsv, tlen⟩
    rw [rsv, tlen]
    rfl

/-! ## Decoding and encoding are inverse -/

/-- A command MAC has a word exactly when its TLEN is a value of the field (R73). -/
theorem wf_mac_iff (n : Nat) : (Instr.mac n).wf = true ↔ ∃ t : BitVec 5, t.toNat = n := by
  constructor
  · intro wf
    exact ⟨BitVec.ofNat 5 n, Nat.mod_eq_of_lt (of_decide_eq_true wf)⟩
  · rintro ⟨t, rfl⟩
    exact decide_eq_true t.isLt

theorem decode_mac_of_fields {w : Word} (op : fieldOp w = 5) (rsv : fieldRsv w = 0) :
    decode w = .ok (.mac (fieldTlen w).toNat) := by
  simp [decode, op, rsv]

theorem decode_encode_mac (t : BitVec 5) : decode (encode (.mac t.toNat)) = .ok (.mac t.toNat) :=
  calc decode (encode (.mac t.toNat))
    _ = decode (5#4 ++ 0#23 ++ t) := congrArg decode (mac_word t).symm
    _ = .ok (.mac (fieldTlen (5#4 ++ 0#23 ++ t)).toNat) :=
      decode_mac_of_fields (fieldOp_append ..) (fieldRsv_append ..)
    _ = .ok (.mac t.toNat) := by rw [fieldTlen_append]

/-- The decoder reads a command from its own word. -/
theorem decode_encode {i : Instr} (wf : i.wf = true) : decode (encode i) = .ok i := by
  cases i with
  | nop | ldkey | derive | dbl | perm => rfl
  | mac n =>
    obtain ⟨t, rfl⟩ := (wf_mac_iff n).mp wf
    exact decode_encode_mac t

/-- The whole decoder: the words of the well-formed commands, and no others. -/
theorem decode_eq_ok_iff {w : Word} {i : Instr} : decode w = .ok i ↔ w = encode i ∧ i.wf = true :=
  ⟨word_of_decode, by rintro ⟨rfl, wf⟩; exact decode_encode wf⟩

theorem encode_injective {i j : Instr} (wfi : i.wf = true) (wfj : j.wf = true) (same : encode i = encode j) : i = j :=
  Except.ok.inj ((decode_encode wfi).symm.trans ((congrArg decode same).trans (decode_encode wfj)))

/-- Settles O1: the five fixed words by evaluation, the MAC word by its fields. -/
theorem decodeOfEncodeIsTheCommand : Obligations.DecodeOfEncodeIsTheCommand :=
  fun _ wf => decode_encode wf

/-- Settles O2: a word is its three fields, and the decoder fixes each of them but the TLEN of MAC. -/
theorem encodeOfDecodeIsTheWord : Obligations.EncodeOfDecodeIsTheWord := by
  intro w i h
  obtain ⟨word, wf⟩ := word_of_decode h
  exact ⟨wf, word.symm⟩

/-! ## The masks and matches of the opcode map (R72) -/

/-- A row of a command without an operand: the mask keeps every bit. -/
theorem decode_fixed_iff {i : Instr} (wf : i.wf = true) (w : Word) :
    decode w = .ok i ↔ w &&& 0xFFFFFFFF = encode i := by
  have mask : w &&& 0xFFFFFFFF = w := BitVec.and_allOnes
  rw [decode_eq_ok_iff, mask]
  exact and_iff_left wf

/-- The mask of MAC keeps OP and RSV. -/
theorem and_macMask (w : Word) : w &&& 0xFFFFFFE0 = fieldOp w ++ fieldRsv w ++ 0#5 :=
  calc w &&& 0xFFFFFFE0
    _ = (fieldOp w ++ fieldRsv w ++ fieldTlen w) &&& (BitVec.allOnes 4 ++ BitVec.allOnes 23 ++ 0#5) :=
      congrArg (· &&& 0xFFFFFFE0) (word_eq_fields w)
    _ = fieldOp w ++ fieldRsv w ++ 0#5 := by
      rw [BitVec.and_append, BitVec.and_append, BitVec.and_allOnes, BitVec.and_allOnes, BitVec.and_zero]

theorem macRow_iff (w : Word) : w &&& 0xFFFFFFE0 = 0x50000000 ↔ fieldOp w = 5 ∧ fieldRsv w = 0 := by
  have row : (0x50000000 : Word) = 5#4 ++ 0#23 ++ 0#5 := rfl
  rw [and_macMask, row]
  constructor
  · intro same
    obtain ⟨op, rsv, _⟩ := (append_fields_inj ..).mp same
    exact ⟨op, rsv⟩
  · rintro ⟨op, rsv⟩
    exact (append_fields_inj ..).mpr ⟨op, rsv, rfl⟩

theorem toNat_fieldTlen (w : Word) : (fieldTlen w).toNat = w.toNat % 32 := by
  rw [fieldTlen, BitVec.extractLsb'_toNat, Nat.shiftRight_zero]

/-- The row of MAC. -/
theorem decode_mac_iff (w : Word) (n : Nat) :
    decode w = .ok (.mac n) ↔ w &&& 0xFFFFFFE0 = 0x50000000 ∧ n = w.toNat % 32 := by
  rw [macRow_iff, ← toNat_fieldTlen]
  constructor
  · intro h
    obtain ⟨word, wf⟩ := word_of_decode h
    obtain ⟨t, rfl⟩ := (wf_mac_iff n).mp wf
    have fields : w = 5#4 ++ 0#23 ++ t := word.trans (mac_word t).symm
    rw [fields, fieldOp_append, fieldRsv_append, fieldTlen_append]
    exact ⟨⟨rfl, rfl⟩, rfl⟩
  · rintro ⟨⟨op, rsv⟩, rfl⟩
    exact decode_mac_of_fields op rsv

/-- Settles O3: of the six rows only that of the command itself can hold, and that one is `decode_fixed_iff` or
`decode_mac_iff`. -/
theorem decodeFollowsMasksAndMatches : Obligations.DecodeFollowsMasksAndMatches := by
  intro w i
  cases i with
  | nop => simpa [encode] using decode_fixed_iff (i := .nop) rfl w
  | ldkey => simpa [encode] using decode_fixed_iff (i := .ldkey) rfl w
  | derive => simpa [encode] using decode_fixed_iff (i := .derive) rfl w
  | dbl => simpa [encode] using decode_fixed_iff (i := .dbl) rfl w
  | perm => simpa [encode] using decode_fixed_iff (i := .perm) rfl w
  | mac n => simpa using decode_mac_iff w n

/-! ## The illegal words (R74) -/

theorem decodeFixed_error_iff (w : Word) (i : Instr) :
    (∃ e, decodeFixed w i = .error e) ↔ w.extractLsb' 0 28 ≠ 0 := by
  rw [Ne, operand_eq_zero_iff, decodeFixed]
  split
  · next zero => simp [zero]
  · next nonzero => exact iff_of_true ⟨_, rfl⟩ nonzero

theorem decode_error_iff (w : Word) : (∃ e, decode w = .error e) ↔
    6 ≤ (fieldOp w).toNat ∨ ((fieldOp w).toNat ≤ 4 ∧ w.extractLsb' 0 28 ≠ 0) ∨
      ((fieldOp w).toNat = 5 ∧ fieldRsv w ≠ 0) := by
  unfold decode
  split
  case h_1 op | h_2 op | h_3 op | h_4 op | h_5 op => simp [op, decodeFixed_error_iff]
  case h_6 op =>
    split
    · next zero => simp [op, zero]
    · next nonzero => exact iff_of_true ⟨_, rfl⟩ (.inr (.inr ⟨op, nonzero⟩))
  case h_7 no0 no1 no2 no3 no4 no5 =>
    have reserved : 6 ≤ (fieldOp w).toNat := by
      rw [imp_false] at no0 no1 no2 no3 no4 no5
      omega
    exact iff_of_true ⟨_, rfl⟩ (.inl reserved)

/-- The 37 commands that have a word. -/
def commands : List Instr := [.nop, .ldkey, .derive, .dbl, .perm] ++ (List.range 32).map .mac

theorem mem_commands (i : Instr) : i ∈ commands ↔ i.wf = true := by
  cases i <;> simp [commands, Instr.wf]

theorem map_encode_commands : commands.map encode =
    [0x00000000, 0x10000000, 0x20000000, 0x30000000, 0x40000000] ++
      (List.range 32).map (fun t => 0x50000000 + BitVec.ofNat 32 t) := by
  decide

theorem nodup_map_encode_commands : (commands.map encode).Nodup :=
  List.Nodup.map_on
    (fun i hi j hj same => encode_injective ((mem_commands i).mp hi) ((mem_commands j).mp hj) same)
    (by decide)

theorem exists_decode_iff_mem (w : Word) : (∃ i, decode w = .ok i) ↔ w ∈ commands.map encode := by
  simp only [decode_eq_ok_iff, List.mem_map, mem_commands, and_comm, eq_comm (a := w)]

/-- An illegal word written to CMD raises Fault(E_OPCODE) (43_host_commands.md R163). -/
theorem hostTxn_illegal {w : Word} {e : DecodeError} {s : State} (illegal : decode w = .error e)
    (ready : s.err = false) : hostTxn (.wr 0 w) s = .next (s.raise .opcode) :=
  calc hostTxn (.wr 0 w) s
    _ = ignoredIfErr s fun s => .next (s.raise .opcode) := commandWord_error s illegal
    _ = .next (s.raise .opcode) := ignoredIfErr_ready _ ready

/-- Settles O4: the cases of the decoder, the words of the 37 commands, and the command dispatch. -/
theorem illegalWordsAreTheReservedOnes : Obligations.IllegalWordsAreTheReservedOnes :=
  ⟨decode_error_iff,
    ⟨commands.map encode, map_encode_commands, nodup_map_encode_commands, rfl, exists_decode_iff_mem⟩,
    fun _ _ _ => hostTxn_illegal⟩

/-- Settles O5: each word is the word of its command. -/
theorem wordsOfEveryFamilyDecode : Obligations.WordsOfEveryFamilyDecode :=
  ⟨decode_encode (i := .nop) rfl, decode_encode (i := .ldkey) rfl, decode_encode (i := .derive) rfl,
    decode_encode (i := .dbl) rfl, decode_encode (i := .perm) rfl, decode_encode (i := .mac 16) rfl,
    decode_encode (i := .mac 31) rfl⟩

end Sys2Proof.Machine
end

section
/-! PROOF. The DBL unit (40_field_doubling.md): `double` is a one-bit shift of the 128-bit value with a conditional
reduction, its integer form, linearity and inverse follow (R92, R93, R95), and the commands DBL and DERIVE write it
(R97, R98). -/

namespace Sys2Proof.Machine

/-! ## One word shifted by one bit -/

/-- A word shifted right by one bit, `top` shifted in at bit 31. (The left shift is the library's `shiftConcat`.) -/
def shiftRightIn (top : Bool) (w : Word) : Word := (BitVec.cons top w).extractLsb' 1 32

theorem getElem_shiftRightIn (top : Bool) (w : Word) {i : Nat} (h : i < 32) :
    (shiftRightIn top w)[i] = if i = 31 then top else w.getLsbD (i + 1) := by
  have last : i + 1 = 32 ↔ i = 31 := by omega
  simp only [shiftRightIn, BitVec.getElem_extractLsb', BitVec.getLsbD_cons, Nat.add_comm 1 i, last]

theorem msb_shiftRightIn (top : Bool) (w : Word) : (shiftRightIn top w).msb = top :=
  getElem_shiftRightIn top w (i := 31) (by decide)

theorem lsb_shiftConcat (w : Word) (low : Bool) : (w.shiftConcat low).getLsbD 0 = low :=
  BitVec.getElem_shiftConcat_zero low (by decide)

theorem shiftRightIn_shiftConcat (w : Word) (low : Bool) : shiftRightIn w.msb (w.shiftConcat low) = w := by
  ext i hi
  rw [getElem_shiftRightIn _ _ hi, BitVec.getLsbD_shiftConcat]
  split
  · next last => subst last; rfl
  · next inner =>
    have inside : i + 1 < 32 := by omega
    simp [inside, hi]

theorem shiftConcat_shiftRightIn (top : Bool) (w : Word) : (shiftRightIn top w).shiftConcat (w.getLsbD 0) = w := by
  ext i hi
  rw [BitVec.getElem_shiftConcat]
  split
  · next first => subst first; rfl
  · next later =>
    have inner : i - 1 ≠ 31 := by omega
    rw [getElem_shiftRightIn, if_neg inner, Nat.sub_add_cancel (Nat.pos_of_ne_zero later)]
    rfl

theorem shiftConcat_xor (v w : Word) (a b : Bool) :
    v.shiftConcat a ^^^ w.shiftConcat b = (v ^^^ w).shiftConcat (a ^^ b) := by
  ext i hi
  simp only [BitVec.getElem_xor, BitVec.getElem_shiftConcat]
  split <;> rfl

/-- The bit of the next lower word comes in at bit 0 (R91). -/
theorem shiftLeft_or_shiftRight_31 (w low : Word) : (w <<< 1) ||| (low >>> 31) = w.shiftConcat low.msb := by
  ext i hi
  rw [BitVec.getElem_shiftConcat]
  cases i with
  | zero => simp [BitVec.msb_eq_getLsbD_last]
  | succ i => simp [show 31 + (i + 1) = 32 + i by omega]

theorem shiftLeft_one (w : Word) : w <<< 1 = w.shiftConcat false :=
  calc w <<< 1
    _ = (w <<< 1) ||| ((0 : Word) >>> 31) := BitVec.or_zero.symm
    _ = w.shiftConcat false := shiftLeft_or_shiftRight_31 w 0

/-- The bit of the next higher word comes in at bit 31 (R95). -/
theorem shiftRight_or_shiftLeft_31 (w high : Word) :
    (w >>> 1) ||| ((high &&& 1) <<< 31) = shiftRightIn (high.getLsbD 0) w := by
  ext i hi
  rw [getElem_shiftRightIn _ _ hi]
  split
  · next last => subst last; simp
  · next inner =>
    have below : i < 31 := by omega
    simp [below, Nat.add_comm 1 i]

theorem shiftRight_31_eq_one_iff (w : Word) : w >>> 31 = 1 ↔ w.msb = true := by
  rw [BitVec.msb_eq_decide, decide_eq_true_iff]
  bv_omega

theorem and_one_eq_one_iff (w : Word) : w &&& 1 = 1 ↔ w.getLsbD 0 = true := by
  have bit : w &&& 1 = (BitVec.ofBool (w.getLsbD 0)).setWidth 32 := BitVec.and_one_eq_setWidth_ofBool_getLsbD
  rw [bit]
  cases w.getLsbD 0 <;> decide

/-! ## The 128-bit value shifted by one bit, and the reduction -/

/-- The 128-bit value shifted left by one bit; bit 127 is lost (R91). -/
def quadShiftLeft (x : Quad) : Quad :=
  ⟨x.w0.shiftConcat false, x.w1.shiftConcat x.w0.msb, x.w2.shiftConcat x.w1.msb, x.w3.shiftConcat x.w2.msb⟩

/-- The 128-bit value shifted right by one bit, `top` shifted in at bit 127. -/
def quadShiftRight (top : Bool) (y : Quad) : Quad :=
  ⟨shiftRightIn (y.w1.getLsbD 0) y.w0, shiftRightIn (y.w2.getLsbD 0) y.w1,
    shiftRightIn (y.w3.getLsbD 0) y.w2, shiftRightIn top y.w3⟩

/-- What `double` XORs in after the shift: RCONST when bit 127 was set (R91). -/
def reduction (carry : Bool) : Quad := ⟨if carry then RCONST else 0, 0#32, 0#32, 0#32⟩

theorem double_eq (x : Quad) : double x = (quadShiftLeft x).xor (reduction x.w3.msb) := by
  simp only [double, quadShiftLeft, Quad.xor, reduction, shiftLeft_or_shiftRight_31, shiftLeft_one x.w0,
    shiftRight_31_eq_one_iff, BitVec.xor_zero]

theorem halve_eq (y : Quad) :
    halve y = quadShiftRight (y.w0.getLsbD 0) (y.xor (reduction (y.w0.getLsbD 0))) := by
  simp only [halve, quadShiftRight, Quad.xor, reduction, shiftRight_or_shiftLeft_31, and_one_eq_one_iff,
    BitVec.xor_zero]

/-- RCONST is odd: the reduction carries bit 127 into bit 0. -/
theorem lsb_reduction (carry : Bool) : (reduction carry).w0.getLsbD 0 = carry := by
  cases carry <;> rfl

theorem reduction_xor (a b : Bool) : (reduction a).xor (reduction b) = reduction (a ^^ b) := by
  cases a <;> cases b <;> rfl

theorem quadShiftLeft_xor (a b : Quad) : (quadShiftLeft a).xor (quadShiftLeft b) = quadShiftLeft (a.xor b) := by
  simp only [quadShiftLeft, Quad.xor, shiftConcat_xor, BitVec.msb_xor, Bool.xor_false]

theorem quadShiftRight_quadShiftLeft (x : Quad) : quadShiftRight x.w3.msb (quadShiftLeft x) = x := by
  simp only [quadShiftLeft, quadShiftRight, lsb_shiftConcat, shiftRightIn_shiftConcat]

/-- A right shift drops only bit 0. -/
theorem quadShiftLeft_quadShiftRight (top : Bool) {y : Quad} (even : y.w0.getLsbD 0 = false) :
    quadShiftLeft (quadShiftRight top y) = y := by
  have first := shiftConcat_shiftRightIn (y.w1.getLsbD 0) y.w0
  rw [even] at first
  simp only [quadShiftLeft, quadShiftRight, msb_shiftRightIn, shiftConcat_shiftRightIn, first]

/-! ## XOR of 128-bit values -/

theorem quad_xor_xor_cancel (a b : Quad) : (a.xor b).xor b = a := by
  simp only [Quad.xor, BitVec.xor_assoc, BitVec.xor_self, BitVec.xor_zero]

theorem quad_xor_xor_xor_comm (a b c d : Quad) : (a.xor b).xor (c.xor d) = (a.xor c).xor (b.xor d) := by
  simp only [Quad.xor, Quad.mk.injEq]
  refine ⟨?_, ?_, ?_, ?_⟩ <;> ac_rfl

/-! ## Linearity and the inverse (R93, R95) -/

theorem double_xor (a b : Quad) : (double a).xor (double b) = double (a.xor b) := by
  have top : (a.xor b).w3.msb = (a.w3.msb ^^ b.w3.msb) := BitVec.msb_xor
  calc (double a).xor (double b)
    _ = ((quadShiftLeft a).xor (reduction a.w3.msb)).xor ((quadShiftLeft b).xor (reduction b.w3.msb)) := by
      rw [double_eq, double_eq]
    _ = ((quadShiftLeft a).xor (quadShiftLeft b)).xor ((reduction a.w3.msb).xor (reduction b.w3.msb)) :=
      quad_xor_xor_xor_comm ..
    _ = (quadShiftLeft (a.xor b)).xor (reduction (a.xor b).w3.msb) := by
      rw [quadShiftLeft_xor, reduction_xor, top]
    _ = double (a.xor b) := (double_eq _).symm

/-- Settles O38: the shift and the reduction are linear each. -/
theorem doubleIsLinear : Obligations.DoubleIsLinear :=
  ⟨double_xor, rfl⟩

/-- Bit 0 of a doubled value tells whether it was reduced. -/
theorem lsb_double (x : Quad) : (double x).w0.getLsbD 0 = x.w3.msb := by
  rw [double_eq]
  calc ((quadShiftLeft x).xor (reduction x.w3.msb)).w0.getLsbD 0
    _ = ((x.w0.shiftConcat false).getLsbD 0 ^^ (reduction x.w3.msb).w0.getLsbD 0) := BitVec.getLsbD_xor
    _ = x.w3.msb := by rw [lsb_shiftConcat, lsb_reduction, Bool.false_xor]

theorem halve_double (x : Quad) : halve (double x) = x :=
  calc halve (double x)
    _ = quadShiftRight x.w3.msb ((double x).xor (reduction x.w3.msb)) := by rw [halve_eq, lsb_double]
    _ = quadShiftRight x.w3.msb (quadShiftLeft x) := by rw [double_eq, quad_xor_xor_cancel]
    _ = x := quadShiftRight_quadShiftLeft x

/-- The inverse takes the reduction out of an odd value before it shifts: what it shifts is even. -/
theorem lsb_xor_reduction (y : Quad) : (y.xor (reduction (y.w0.getLsbD 0))).w0.getLsbD 0 = false :=
  calc (y.xor (reduction (y.w0.getLsbD 0))).w0.getLsbD 0
    _ = (y.w0.getLsbD 0 ^^ (reduction (y.w0.getLsbD 0)).w0.getLsbD 0) := BitVec.getLsbD_xor
    _ = false := by rw [lsb_reduction, Bool.xor_self]

theorem msb_halve (y : Quad) : (halve y).w3.msb = y.w0.getLsbD 0 := by
  simp only [halve_eq, quadShiftRight, msb_shiftRightIn]

theorem double_halve (y : Quad) : double (halve y) = y :=
  calc double (halve y)
    _ = (quadShiftLeft (halve y)).xor (reduction (y.w0.getLsbD 0)) := by rw [double_eq, msb_halve]
    _ = (y.xor (reduction (y.w0.getLsbD 0))).xor (reduction (y.w0.getLsbD 0)) := by
      rw [halve_eq, quadShiftLeft_quadShiftRight _ (lsb_xor_reduction y)]
    _ = y := quad_xor_xor_cancel ..

/-- Settles O39: bit 0 of the doubled value is bit 127 of the value, so both sides know whether to reduce. -/
theorem doubleHasAnInverse : Obligations.DoubleHasAnInverse :=
  ⟨halve_double, double_halve⟩

/-! ## The integer form (R92) -/

/-- XOR works digit by digit in base `2^k`. -/
theorem add_two_pow_mul_xor {a b k : Nat} (ha : a < 2 ^ k) (hb : b < 2 ^ k) (m n : Nat) :
    (a + 2 ^ k * m) ^^^ (b + 2 ^ k * n) = (a ^^^ b) + 2 ^ k * (m ^^^ n) := by
  refine Nat.eq_of_testBit_eq fun i => ?_
  rw [Nat.testBit_xor, Nat.add_comm a, Nat.add_comm b, Nat.add_comm (a ^^^ b), Nat.testBit_two_pow_mul_add m ha,
    Nat.testBit_two_pow_mul_add n hb, Nat.testBit_two_pow_mul_add _ (Nat.xor_lt_two_pow ha hb)]
  split <;> exact (Nat.testBit_xor ..).symm

/-- The 128-bit value digit by digit in base `2^32` (R8). -/
theorem val128_eq_digits (x : Quad) :
    val128 x = x.w0.toNat + 2 ^ 32 * (x.w1.toNat + 2 ^ 32 * (x.w2.toNat + 2 ^ 32 * x.w3.toNat)) := by
  rw [val128]
  omega

theorem val128_xor (a b : Quad) : val128 (a.xor b) = val128 a ^^^ val128 b := by
  simp only [val128_eq_digits, add_two_pow_mul_xor (BitVec.isLt _) (BitVec.isLt _), Quad.xor, BitVec.toNat_xor]

theorem toNat_msb (w : Word) : w.msb.toNat = w.toNat / 2 ^ 31 :=
  calc w.msb.toNat
    _ = (w.toNat.testBit 31).toNat := by rw [BitVec.msb_eq_getLsbD_last, BitVec.getLsbD]
    _ = w.toNat / 2 ^ 31 := by rw [Nat.toNat_testBit]; omega

theorem val128_quadShiftLeft (x : Quad) : val128 (quadShiftLeft x) = 2 * val128 x % 2 ^ 128 := by
  simp only [val128, quadShiftLeft, BitVec.toNat_shiftConcat, toNat_msb, Bool.toNat_false,
    Nat.shiftLeft_eq]
  omega

theorem msb_iff_val128 (x : Quad) : x.w3.msb = true ↔ val128 x ≥ 2 ^ 127 := by
  rw [BitVec.msb_eq_decide, decide_eq_true_iff, val128]
  omega

theorem val128_reduction (carry : Bool) : val128 (reduction carry) = if carry = true then 0x87 else 0 := by
  cases carry <;> rfl

/-- Settles O37: the value of the shift, of the reduction, and of their XOR. -/
theorem doubleIntegerForm : Obligations.DoubleIntegerForm := by
  intro x
  calc val128 (double x)
    _ = val128 (quadShiftLeft x) ^^^ val128 (reduction x.w3.msb) := by rw [double_eq, val128_xor]
    _ = (2 * val128 x % 2 ^ 128) ^^^ (if val128 x ≥ 2 ^ 127 then 0x87 else 0) := by
      simp only [val128_quadShiftLeft, val128_reduction, msb_iff_val128]

/-! ## The commands DBL and DERIVE (R97, R98) -/

section

variable {s : State}

theorem exec_dbl_of_err (faulted : s.err = true) : exec .dbl s = .next s := by
  rw [exec, execDbl, ignoredIfErr_err _ faulted]

theorem exec_dbl_ready (ready : s.err = false) : exec .dbl s = .next (s.setD (double s.d)) := by
  rw [exec, execDbl, ignoredIfErr_ready _ ready]

theorem exec_derive_of_err (faulted : s.err = true) : exec .derive s = .next s := by
  rw [exec, execDerive, ignoredIfErr_err _ faulted]

theorem exec_derive_ready (ready : s.err = false) (key : s.kv = true) :
    exec .derive s = .next (s.setSubkeys (double s.key) (double (double s.key))) := by
  rw [exec, execDerive, ignoredIfErr_ready _ ready, if_pos key, deriveSubkeys]

theorem exec_derive_noKey (ready : s.err = false) (noKey : s.kv = false) :
    exec .derive s = .next (s.raise .noKey) := by
  rw [exec, execDerive, ignoredIfErr_ready _ ready, noKey, if_neg Bool.false_ne_true]

end

/-- Settles O18: one command lemma for each of the three cases, and the word of the command. -/
theorem deriveWritesBothSubkeys : Obligations.DeriveWritesBothSubkeys :=
  ⟨fun _ => exec_derive_ready, fun _ => exec_derive_noKey, fun _ => exec_derive_of_err,
    decode_encode (i := .derive) rfl⟩

/-- Settles O19: the action of the command, the guard on ERR, and the word of the command. -/
theorem dblDoublesTheOperand : Obligations.DblDoublesTheOperand :=
  ⟨fun _ => exec_dbl_ready, fun _ => exec_dbl_of_err, decode_encode (i := .dbl) rfl⟩

/-- Settles O25: DERIVE keeps KEY, KV and ERR, so the second one writes the same subkeys (R96). -/
theorem deriveIsIdempotent : Obligations.DeriveIsIdempotent := by
  intro s t key first
  cases herr : s.err with
  | true =>
    rw [exec_derive_of_err herr] at first
    cases first
    exact exec_derive_of_err herr
  | false =>
    rw [exec_derive_ready herr key] at first
    cases first
    exact exec_derive_ready (s := s.setSubkeys _ _) herr key

end Sys2Proof.Machine
end

section
/-! PROOF. The PERM unit (41_permutation.md): each step of a round is undone by its inverse step, so the round and
`permute` have inverses (R116); the all-zero state is fixed (R115); the round counter runs from 0 to 0 (R118); and the
command PERM writes D (R117). -/

namespace Sys2Proof.Machine

/-! ## The steps of a round and their inverses -/

theorem getLsbD_rotl32 (x : Word) {n i : Nat} (hn : n ≤ WORDW) (hi : i < WORDW) :
    (rotl32 x n).getLsbD i = x.getLsbD ((i + (WORDW - n)) % WORDW) := by
  simp only [WORDW] at hn hi
  simp only [rotl32, WORDW, BitVec.getLsbD_or, BitVec.getLsbD_shiftLeft, BitVec.getLsbD_ushiftRight]
  by_cases wrapped : i < n
  · have source : (i + (32 - n)) % 32 = 32 - n + i := by omega
    simp [source, wrapped]
  · have source : (i + (32 - n)) % 32 = i - n := by omega
    have outside : x.getLsbD (32 - n + i) = false := BitVec.getLsbD_of_ge x _ (by omega)
    simp [source, wrapped, hi, outside]

/-- Two rotations that together go once around the word. -/
theorem rotl32_rotl32 (x : Word) {m n : Nat} (around : m + n = WORDW) : rotl32 (rotl32 x m) n = x := by
  refine BitVec.eq_of_getLsbD_eq fun i hi => ?_
  have hi : i < WORDW := hi
  have middle : (i + (WORDW - n)) % WORDW < WORDW := Nat.mod_lt _ (by decide)
  have back : ((i + (WORDW - n)) % WORDW + (WORDW - m)) % WORDW = i := by
    simp only [WORDW] at *
    omega
  calc (rotl32 (rotl32 x m) n).getLsbD i
    _ = (rotl32 x m).getLsbD ((i + (WORDW - n)) % WORDW) := getLsbD_rotl32 _ (by omega) hi
    _ = x.getLsbD (((i + (WORDW - n)) % WORDW + (WORDW - m)) % WORDW) := getLsbD_rotl32 _ (by omega) middle
    _ = x.getLsbD i := by rw [back]

theorem rotr32_rotl32 (x : Word) {n : Nat} (hn : n ≤ WORDW) : rotr32 (rotl32 x n) n = x :=
  rotl32_rotl32 x (by omega)

theorem rotl32_rotr32 (x : Word) {n : Nat} (hn : n ≤ WORDW) : rotl32 (rotr32 x n) n = x :=
  rotl32_rotl32 x (by omega)

theorem ROT_le_WORDW (k : Nat) : ROT k ≤ WORDW := by
  unfold ROT
  split <;> decide

theorem sub32_add32 (a b : Word) : sub32 (add32 a b) b = a := BitVec.add_sub_cancel a b

theorem add32_sub32 (a b : Word) : add32 (sub32 a b) b = a := BitVec.sub_add_cancel a b

theorem word_xor_xor_cancel (a b : Word) : a ^^^ b ^^^ b = a := by
  rw [BitVec.xor_assoc, BitVec.xor_self, BitVec.xor_zero]

/-! ## The inverse of the round and of `permute` (R116) -/

/-- The inverse round takes the fourteen steps back, the last one first. -/
theorem roundInv_arxRound (x : Quad) : roundInv (arxRound x) = x := by
  simp only [roundInv, arxRound, rotr32_rotl32 _ (ROT_le_WORDW _), sub32_add32, word_xor_xor_cancel]

/-- The round takes the steps of the inverse round back, the last one first. -/
theorem arxRound_roundInv (x : Quad) : arxRound (roundInv x) = x := by
  simp only [roundInv, arxRound, rotl32_rotr32 _ (ROT_le_WORDW _), add32_sub32, word_xor_xor_cancel]

theorem rounds_eq_iterate (n : Nat) : rounds n = arxRound^[n] := by
  induction n with
  | zero => rfl
  | succ n ih => rw [Function.iterate_succ, ← ih]; rfl

theorem roundsInv_eq_iterate (n : Nat) : roundsInv n = roundInv^[n] := by
  induction n with
  | zero => rfl
  | succ n ih => rw [Function.iterate_succ, ← ih]; rfl

theorem permuteInv_permute (x : Quad) : permuteInv (permute x) = x := by
  rw [permuteInv, permute, roundsInv_eq_iterate, rounds_eq_iterate]
  exact Function.LeftInverse.iterate roundInv_arxRound ROUNDS x

theorem permute_permuteInv (x : Quad) : permute (permuteInv x) = x := by
  rw [permuteInv, permute, roundsInv_eq_iterate, rounds_eq_iterate]
  exact Function.LeftInverse.iterate arxRound_roundInv ROUNDS x

/-- Settles O40: the round step by step, and `permute` as the iterated round. -/
theorem permutationHasAnInverse : Obligations.PermutationHasAnInverse :=
  ⟨roundInv_arxRound, arxRound_roundInv, permuteInv_permute, permute_permuteInv⟩

/-! ## The all-zero state (R115) -/

theorem arxRound_zero : arxRound ⟨0, 0, 0, 0⟩ = ⟨0, 0, 0, 0⟩ := by decide

theorem permute_zero : permute ⟨0, 0, 0, 0⟩ = ⟨0, 0, 0, 0⟩ := by
  rw [permute, rounds_eq_iterate]
  exact Function.iterate_fixed arxRound_zero ROUNDS

/-- Settles O41: a fixed point of the round is one of the iterated round. -/
theorem zeroStateIsAFixedPoint : Obligations.ZeroStateIsAFixedPoint :=
  ⟨arxRound_zero, permute_zero⟩

/-! ## The round counter (R118) -/

theorem val_nextRnd {r : Fin 9} (h : r.val + 1 < ROUNDS) : (nextRnd r).val = r.val + 1 := by
  have inside : r.val + 1 < 9 := h.trans (by decide)
  rw [nextRnd, if_neg h.ne, Fin.val_add_one_of_lt' inside]

theorem nextRnd_last {r : Fin 9} (h : r.val + 1 = ROUNDS) : nextRnd r = 0 := by
  rw [nextRnd, if_pos h]

theorem val_iterate_nextRnd {k : Nat} (h : k < ROUNDS) : (nextRnd^[k] 0).val = k := by
  induction k with
  | zero => rfl
  | succ k ih =>
    have count : (nextRnd^[k] 0).val = k := ih (Nat.lt_of_succ_lt h)
    rw [Function.iterate_succ_apply', val_nextRnd (by rwa [count]), count]

theorem iterate_nextRnd_ROUNDS : nextRnd^[ROUNDS] 0 = 0 := by
  have seven : (nextRnd^[7] 0).val = 7 := val_iterate_nextRnd (by decide)
  rw [ROUNDS, Function.iterate_succ_apply']
  exact nextRnd_last (by rw [seven]; rfl)

theorem permRun_eq (x : Quad) : permRun x = ⟨0, permute x⟩ := by
  rw [permRun, permTicks_eq, iterate_nextRnd_ROUNDS, permute]

theorem State.permuteV_eq (s : State) : s.permuteV = { s with v := permute s.v, rnd := 0 } := by
  rw [State.permuteV, permRun_eq]

/-- Settles O42: the count by induction on the rounds, the words by `permTicks_eq`. -/
theorem roundCounterRunsToZero : Obligations.RoundCounterRunsToZero := by
  refine ⟨fun x k h => ?_, permRun_eq, State.permuteV_eq⟩
  rw [permTicks_eq]
  exact val_iterate_nextRnd h

/-! ## The command PERM (R117) -/

section

variable {s : State}

theorem exec_perm_of_err (faulted : s.err = true) : exec .perm s = .next s := by
  rw [exec, execPerm, ignoredIfErr_err _ faulted]

theorem exec_perm_ready (ready : s.err = false) : exec .perm s = .next (s.setD (permute s.d)) := by
  rw [exec, execPerm, ignoredIfErr_ready _ ready]

end

/-- Settles O20: the action of the command, the guard on ERR, and the word of the command. -/
theorem permPermutesTheOperand : Obligations.PermPermutesTheOperand :=
  ⟨fun _ => exec_perm_ready, fun _ => exec_perm_of_err, decode_encode (i := .perm) rfl⟩

end Sys2Proof.Machine
end

section
/-! PROOF. The function `mac` over a message (42_mac_block_processor.md R132 to R138): the bytes of the absorbed blocks
and of the trailing block, the subkey selected for it, and the tags of every length. -/

namespace Sys2Proof.Machine

/-! ## The bytes of a block (30_encoding.md R76, R77) -/

/-- A block depends on its sixteen bytes only. -/
theorem Block.ofFn_congr {f g : Nat → Byte} (same : ∀ i, i < 16 → f i = g i) : Block.ofFn f = Block.ofFn g :=
  Vector.ext fun i h => by rw [Block.getElem_ofFn f h, Block.getElem_ofFn g h, same i h]

/-- A padded block byte by byte: the tail, the marker, zero bytes (R77). -/
theorem padBlock_eq_ofFn (tail : List Byte) :
    padBlock tail =
      Block.ofFn fun i => if i < tail.length then tail.getD i 0 else if i = tail.length then 0x01 else 0x00 := by
  rw [padBlock, blockOfList]
  refine Block.ofFn_congr fun i _ => ?_
  rcases Nat.lt_trichotomy i tail.length with inside | rfl | beyond
  · rw [if_pos inside, List.getD_append _ _ _ _ inside]
  · simp [PADBYTE]
  · rw [if_neg (by omega), if_neg (by omega), List.getD_eq_default]
    simpa using beyond

theorem blockOfList_take (bs : List Byte) : blockOfList (bs.take 16) = blockOfList bs :=
  Block.ofFn_congr fun i h => by simp [List.getD_eq_getElem?_getD, h]

/-- Byte `i` of block `j` is byte `16j + i` of the message (20_memory.md R51). -/
theorem getElem_blockAt (m : List Byte) (j : Nat) {i : Nat} (h : i < 16) : (blockAt m j)[i] = m.getD (16 * j + i) 0 := by
  rw [blockAt_eq, blockOfList_take, blockOfList, Block.getElem_ofFn _ h]
  simp [List.getD_eq_getElem?_getD]

/-- A byte inside a message, written with the default of `getD`. -/
theorem getElem?_eq_some_getD {m : List Byte} {k : Nat} (inside : k < m.length) : m[k]? = some (m.getD k 0) := by
  simp [inside]

/-- The bytes of a block that lies inside the message. -/
theorem getElem?_eq_blockAt {m : List Byte} {j i : Nat} (h : i < 16) (inside : 16 * j + i < m.length) :
    m[16 * j + i]? = some ((blockAt m j)[i]) := by
  rw [getElem_blockAt m j h, getElem?_eq_some_getD inside]

/-- Settles O44: an absorbed block lies inside the message. -/
theorem absorbedBlocksAreWhole : Obligations.AbsorbedBlocksAreWhole := by
  intro m j i h absorbed
  rw [nfull_eq] at absorbed
  exact getElem?_eq_blockAt h (by omega)

/-! ## The trailing block and its subkey (R133) -/

theorem trail_of_whole {m : List Byte} (whole : m.length ≠ 0 ∧ m.length % 16 = 0) :
    trail m = (blockAt m (nfull m.length), .k1) := by
  rw [trail, if_pos (isfull_eq_true.mpr whole)]

theorem trail_of_part {m : List Byte} (part : ¬ (m.length ≠ 0 ∧ m.length % 16 = 0)) :
    trail m = (padBlock (m.drop (16 * nfull m.length)), .k2) := by
  rw [trail, if_neg (mt isfull_eq_true.mp part)]

/-- Byte `i` of a padded trailing block: the tail from offset `o` on, the marker, zero bytes (R77, R133). -/
theorem getElem_padBlock_drop (m : List Byte) (o : Nat) {i : Nat} (h : i < 16) :
    (padBlock (m.drop o))[i] =
      if i < m.length - o then m.getD (o + i) 0 else if i = m.length - o then 0x01 else 0x00 := by
  rw [padBlock_eq_ofFn, Block.getElem_ofFn _ h]
  simp [List.getD_eq_getElem?_getD]

/-- The marker byte written out after a 15-byte message is the marker byte of its padding (R133). -/
theorem trail_append_marker {m : List Byte} (length : m.length = 15) :
    trail (m ++ [0x01]) = ((trail m).1, .k1) ∧ (trail m).2 = .k2 := by
  have markedLength : (m ++ [0x01]).length = 16 := by rw [List.length_append, length]; rfl
  have part : trail m = (padBlock m, .k2) := by
    rw [trail_of_part (by omega), length, show nfull 15 = 0 from rfl, Nat.mul_zero, List.drop_zero]
  have whole : trail (m ++ [0x01]) = (blockAt (m ++ [0x01]) 0, .k1) := by
    rw [trail_of_whole (by omega), markedLength, show nfull 16 = 0 from rfl]
  rw [whole, part, blockAt_eq, blockOfList_take]
  exact ⟨rfl, rfl⟩

/-- Settles O45: the two lengths of R133, each with its block read byte by byte. -/
theorem trailingBlockIsTakenOrPadded : Obligations.TrailingBlockIsTakenOrPadded := by
  rintro m _ _ rfl rfl
  have count := nfull_eq m.length
  refine ⟨fun whole => ?_, fun part => ?_, fun length => ?_⟩
  · rw [trail_of_whole whole]
    exact ⟨rfl, fun i h => getElem?_eq_blockAt h (by omega)⟩
  · rw [trail_of_part (by omega)]
    refine ⟨rfl, by omega, by omega, fun i h => ⟨fun tail => ?_, fun marker => ?_, fun beyond => ?_⟩⟩
    · rw [getElem_padBlock_drop m _ h, if_pos tail, getElem?_eq_some_getD (by omega)]
    · rw [getElem_padBlock_drop m _ h, if_neg (by omega), if_pos marker]
    · rw [getElem_padBlock_drop m _ h, if_neg (by omega), if_neg (by omega)]
  · obtain ⟨marked, padded⟩ := trail_append_marker length
    rw [marked]
    exact ⟨rfl, rfl, padded⟩

/-! ## The tags of every length (R136, R138) -/

theorem mac_of_legal (key k1 k2 : Quad) (m : List Byte) {n : Nat} (legal : 1 ≤ n ∧ n ≤ 16) :
    mac key k1 k2 m n = some ((bytes (macState key k1 k2 m)).toList.take n) :=
  if_pos legal

theorem mac_of_illegal (key k1 k2 : Quad) (m : List Byte) {n : Nat} (illegal : ¬ (1 ≤ n ∧ n ≤ 16)) :
    mac key k1 k2 m n = none :=
  if_neg illegal

/-- The longest tag is all sixteen bytes of the final state. -/
theorem mac_full (key k1 k2 : Quad) (m : List Byte) :
    mac key k1 k2 m 16 = some (bytes (macState key k1 k2 m)).toList := by
  rw [mac_of_legal key k1 k2 m (by decide), List.take_of_length_le (by simp)]

/-- Settles O47: every tag is the first bytes of one final state. -/
theorem tagPrefixStability : Obligations.TagPrefixStability := fun key k1 k2 m =>
  ⟨_, mac_full key k1 k2 m, Vector.length_toList,
    fun _ => ⟨mac_of_legal key k1 k2 m, fun illegal => mac_of_illegal key k1 k2 m (by omega)⟩⟩

/-- The empty message has no block to absorb and an all-padding trailing block (R133, R137). -/
theorem macState_nil (key k1 k2 : Quad) : macState key k1 k2 [] = (permute ((key.xor ⟨1, 0, 0, 0⟩).xor k2)).xor k2 := by
  have padding : words (padBlock []) = ⟨1, 0, 0, 0⟩ := by decide
  rw [← padding]
  rfl

/-- Settles O46: the longest tag of the final state for the empty message. -/
theorem emptyMessageTag : Obligations.EmptyMessageTag := fun key k1 k2 => by
  rw [mac_full, macState_nil]

end Sys2Proof.Machine
end

section
/-! PROOF. The micro-operations (42_mac_block_processor.md R140 to R144): the next state of each under its guards, and
what a step of a running sequencer leaves to the host. -/

namespace Sys2Proof.Machine

/-! ## What each micro-operation answers -/

section

variable {s : State}

/-- With a message that lies in MSG every read inside the message is defined (00_scope.md R11). -/
theorem readMsg_inside (fits : s.mlen ≤ s.msgCap) {off n : Nat} (inside : off + n ≤ s.mlen.toNat) :
    s.readMsg off n = some (s.msgSlice off n) :=
  if_pos (inside.trans fits)

theorem microStep_init (hp : s.phase = .init) : microStep s = .next s.startAbsorb := by rw [microStep, hp, uInit]

theorem microStep_absorb_eq (hp : s.phase = .absorb) : microStep s = uAbsorb s := by rw [microStep, hp]

theorem microStep_select_eq (hp : s.phase = .select) : microStep s = uSelect s := by rw [microStep, hp]

theorem microStep_absorbBlock (hp : s.phase = .absorb) (inside : s.off ≤ s.mlen) (fits : s.mlen ≤ s.msgCap)
    (more : 16 < s.unconsumed) :
    microStep s = .next (s.xorV (words (blockOfList (s.msgSlice s.off.toNat 16)))).permuteV.advanceOff := by
  have total := off_add_unconsumed inside
  have block : s.readMsg s.off.toNat BLOCK = some (s.msgSlice s.off.toNat BLOCK) :=
    readMsg_inside fits (by rw [BLOCK]; omega)
  rw [microStep_absorb_eq hp, uAbsorb, if_neg (BitVec.not_lt.mpr inside), if_pos more, block]

theorem microStep_absorbEnd (hp : s.phase = .absorb) (inside : s.off ≤ s.mlen) (tail : s.unconsumed ≤ 16) :
    microStep s = .next (s.setPhase .select) := by
  rw [microStep_absorb_eq hp, uAbsorb, if_neg (BitVec.not_lt.mpr inside), if_neg (Nat.not_lt.mpr tail)]

/-- U_SELECT with at most a block left: the whole block with K1, or the padded tail with K2. -/
theorem microStep_select (hp : s.phase = .select) (inside : s.off ≤ s.mlen) (fits : s.mlen ≤ s.msgCap)
    (tail : s.unconsumed ≤ 16) :
    microStep s = .next (if s.unconsumed = 16 then s.selectTail (blockOfList (s.msgSlice s.off.toNat s.unconsumed)) .k1
      else s.selectTail (padBlock (s.msgSlice s.off.toNat s.unconsumed)) .k2) := by
  have read := readMsg_inside fits (off_add_unconsumed inside).le
  rw [microStep_select_eq hp, uSelect, if_neg (BitVec.not_lt.mpr inside), if_neg (Nat.not_lt.mpr tail), read]
  exact (apply_ite Host.Outcome.next _ _ _).symm

theorem microStep_final (hp : s.phase = .final) :
    microStep s = .next ((((s.xorV (words s.buf)).xorV s.subkey).permuteV.xorV s.subkey).setPhase .extract) := by
  rw [microStep, hp, uFinal]

theorem microStep_extract (hp : s.phase = .extract) :
    microStep s = .next (State.toIdle (s.deliverTag (tagByte s.v s.taglen) s.taglen)) := by
  rw [microStep, hp, uExtract]

/-- A step of a running sequencer keeps all that a MAC command does not write. -/
theorem step_keeps_outsideMac {t : State} (running : s.phase ≠ .idle) (h : step s = .next t) :
    t.outsideMac = s.outsideMac := by
  obtain ⟨hp, -⟩ | ⟨hp, -⟩ | ⟨-, ht⟩ := step_cases h
  · exact absurd hp running
  · exact absurd hp running
  · exact microStep_keeps_outsideMac ht

end

/-- Settles O14: the host's lists are no part of what a MAC command writes. -/
theorem transactionsWaitForTheSequencer : Obligations.TransactionsWaitForTheSequencer := fun _ _ running h =>
  have kept := step_keeps_outsideMac running h
  ⟨(congrArg State.pending kept :), (congrArg State.replies kept :)⟩

/-! ## The micro-operations as the rules write them -/

/-- Sixteen bytes of MSG as a block (30_encoding.md R76). -/
theorem blockOfList_msgSlice (s : State) (off : Nat) :
    blockOfList (s.msgSlice off 16) = Block.ofFn fun i => s.msgByte (off + i) :=
  Block.ofFn_congr fun _ h => getD_msgSlice s off h

/-- Tail bytes of MSG as a padded block (30_encoding.md R77). -/
theorem padBlock_msgSlice (s : State) (off r : Nat) :
    padBlock (s.msgSlice off r) =
      Block.ofFn fun i => if i < r then s.msgByte (off + i) else if i = r then 0x01 else 0x00 := by
  rw [padBlock_eq_ofFn, length_msgSlice]
  refine Block.ofFn_congr fun i _ => ?_
  split
  · next tail => exact getD_msgSlice s off tail
  · rfl

/-- The bytes that U_EXTRACT stores, read from the byte sequence of V (R144). -/
theorem tagByte_eq_getD (x : Quad) (n : TagLen) {i : Nat} (h : i < 16) :
    tagByte x n i = if i < n.val then (bytes x).toList.getD i 0 else 0x00 := by
  have byte : (bytes x).toList.getD i 0 = byteOf x i := by
    rw [List.getD_eq_getElem _ _ (by simpa using h), Vector.getElem_toList, getElem_bytes x h]
  rw [tagByte, byte]

/-- Settles O48: U_INIT reads KEY alone. -/
theorem initMicroOperation : Obligations.InitMicroOperation := fun s hp aligned =>
  calc step s
    _ = microStep s := step_busy aligned (by simp [hp])
    _ = .next s.startAbsorb := microStep_init hp

/-- Settles O49: the two branches of U_ABSORB, the block read from MSG and the PERM unit's run on V. -/
theorem absorbMicroOperation : Obligations.AbsorbMicroOperation := by
  intro s hp aligned inside fits
  rw [step_busy aligned (by simp [hp])]
  refine ⟨fun more => ?_, fun tail => microStep_absorbEnd hp inside tail⟩
  rw [microStep_absorbBlock hp inside fits more, blockOfList_msgSlice, State.permuteV_eq]
  rfl

/-- Settles O50: the two branches of U_SELECT, each with its block read from MSG. -/
theorem selectMicroOperation : Obligations.SelectMicroOperation := by
  intro s r hp aligned inside fits left
  have unconsumed : s.unconsumed = r := left.symm
  rw [step_busy aligned (by simp [hp])]
  refine ⟨fun whole => ?_, fun part => ?_⟩
  · have whole : s.unconsumed = 16 := unconsumed.trans whole
    rw [microStep_select hp inside fits whole.le, if_pos whole, whole, blockOfList_msgSlice]
    rfl
  · rw [microStep_select hp inside fits (by omega), if_neg (by omega), unconsumed, padBlock_msgSlice]
    rfl

/-- SEL 1 selects K1 and SEL 2 selects K2 (R143). -/
theorem subkey_eq_of_sel {s : State} {l : Quad} (selected : (s.sel = .k1 ∧ l = s.k1) ∨ (s.sel = .k2 ∧ l = s.k2)) :
    s.subkey = l := by
  obtain ⟨hsel, rfl⟩ | ⟨hsel, rfl⟩ := selected
  · rw [State.subkey, hsel]; rfl
  · rw [State.subkey, hsel]; rfl

/-- Settles O51: the subkey that SEL selects and the PERM unit's run on V. -/
theorem finalMicroOperation : Obligations.FinalMicroOperation := by
  intro s l hp aligned selected
  rw [step_busy aligned (by simp [hp]), microStep_final hp, subkey_eq_of_sel selected, State.permuteV_eq]
  rfl

/-- Settles O52: the bytes of V in the tag; the held TLEN is 0 afterwards. -/
theorem extractMicroOperation : Obligations.ExtractMicroOperation := by
  intro s hp aligned
  refine ⟨0, ?_⟩
  rw [step_busy aligned (by simp [hp]), microStep_extract hp,
    ← Block.ofFn_congr fun _ h => tagByte_eq_getD s.v s.taglen h]
  rfl

end Sys2Proof.Machine
end

section
/-! PROOF. The MAC command as a run of micro-operations (42_mac_block_processor.md R139, R147, R148): a run of exactly
nfull(MLEN) + 5 of them, its last state by the functional layer, and what follows for the command. -/

namespace Sys2Proof.Machine

/-! ## Runs of micro-operations -/

/-- `SequencerRun k s u`: from `s` the sequencer takes exactly `k` micro-operations to the idle state `u`, with OFF
legal before each. -/
inductive SequencerRun : Nat → State → State → Prop
  | atRest {u : State} (rest : u.phase = .idle) : SequencerRun 0 u u
  | micro {k : Nat} {s t u : State} (running : s.phase ≠ .idle) (aligned : s.off.toNat % 16 = 0)
    (op : microStep s = .next t) (later : SequencerRun k t u) : SequencerRun (k + 1) s u

theorem runSequencer_atRest {s : State} (n : Nat) (rest : s.phase = .idle) : runSequencer n s = .next s := by
  cases n with
  | zero => exact if_pos rest
  | succ n => exact if_pos rest

theorem runSequencer_succ {s t : State} (n : Nat) (running : s.phase ≠ .idle) (op : microStep s = .next t) :
    runSequencer (n + 1) s = runSequencer n t := by
  rw [runSequencer, if_neg running, op]

theorem coreRun_succ {s t : State} (k : Nat) (h : step s = .next t) :
    Host.Core.run Sys2Proof.core (k + 1) s = Host.Core.run Sys2Proof.core k t := by
  have h : Sys2Proof.core.step s = .next t := h
  simp only [Host.Core.run, h]

section

variable {k : Nat} {s u : State}

/-- The sequencer inside the command takes the same micro-operations (R145). -/
theorem SequencerRun.runSequencer_eq (run : SequencerRun k s u) : runSequencer k s = .next u := by
  induction run with
  | atRest rest => exact runSequencer_atRest 0 rest
  | micro running _ op _ ih => rw [runSequencer_succ _ running op, ih]

/-- One micro-operation a step, the machine stands after `j` steps in a state that is idle only at the end. -/
theorem SequencerRun.exists_coreRun (run : SequencerRun k s u) {j : Nat} (h : j ≤ k) :
    ∃ t : State, Host.Core.run Sys2Proof.core j s = .next t ∧ (t.phase = .idle ↔ j = k) ∧ (j = k → t = u) := by
  induction run generalizing j with
  | @atRest u rest =>
    obtain rfl := Nat.le_zero.mp h
    exact ⟨u, rfl, iff_of_true rest rfl, fun _ => rfl⟩
  | @micro k s t u running aligned op _ ih =>
    cases j with
    | zero => exact ⟨s, rfl, iff_of_false running (Nat.succ_ne_zero k).symm, nofun⟩
    | succ j =>
      obtain ⟨x, hx, idle, last⟩ := ih (Nat.le_of_succ_le_succ h)
      rw [coreRun_succ j ((step_busy aligned running).trans op)]
      exact ⟨x, hx, by rw [idle, Nat.add_right_cancel_iff], fun e => last (Nat.succ.inj e)⟩

end

/-! ## The run of an accepted MAC command -/

/-- The final state of V for the key, the subkeys and the message that the core holds (R131 to R134). -/
def State.finalV (s : State) : Quad := macState s.key s.k1 s.k2 s.message

/-- The state in which a MAC invocation ends: the first bytes of the final V delivered with the held TLEN, the scratch
state idle (R144). -/
def State.macDone (s : State) : State := State.toIdle (s.deliverTag (tagByte s.finalV s.taglen) s.taglen)

section

variable (s : State)

@[simp] theorem State.macDone_tag : s.macDone.tag = words (Block.ofFn (tagByte s.finalV s.taglen)) := rfl
@[simp] theorem State.macDone_tl : s.macDone.tl = s.taglen := rfl
@[simp] theorem State.outsideMac_macDone : s.macDone.outsideMac = s.outsideMac := rfl
@[simp] theorem State.outsideMac_acceptMac (n : TagLen) : (s.acceptMac n).outsideMac = s.outsideMac := rfl
@[simp] theorem State.outsideMac_startAbsorb : s.startAbsorb.outsideMac = s.outsideMac := rfl

end

section

variable {s t : State}

/-- The final V reads nothing that a MAC command writes. -/
theorem State.finalV_congr (kept : t.outsideMac = s.outsideMac) : t.finalV = s.finalV :=
  (congrArg State.finalV kept :)

/-- The end of a MAC invocation reads nothing that a MAC command writes but the held TLEN. -/
theorem State.macDone_congr (kept : t.outsideMac = s.outsideMac) (taglen : t.taglen = s.taglen) :
    t.macDone = s.macDone :=
  calc t.macDone
    _ = State.toIdle (t.outsideMac.deliverTag (tagByte t.finalV t.taglen) t.taglen) := rfl
    _ = State.toIdle (s.outsideMac.deliverTag (tagByte s.finalV s.taglen) s.taglen) := by
      rw [State.finalV_congr kept, kept, taglen]
    _ = s.macDone := rfl

end

/-- One more micro-operation in front of a run to the end of the MAC invocation. -/
theorem SequencerRun.cons {k : Nat} {s t : State} (running : s.phase ≠ .idle) (aligned : s.off.toNat % 16 = 0)
    (op : microStep s = .next t) (taglen : t.taglen = s.taglen) (later : SequencerRun k t t.macDone) :
    SequencerRun (k + 1) s s.macDone :=
  .micro running aligned op (State.macDone_congr (microStep_keeps_outsideMac op) taglen ▸ later)

/-- Blocks 0 .. j-1 of a message in MSG are absorbed into V, and OFF stands behind them (R132, R141). -/
structure Absorbed (j : Nat) (s : State) : Prop where
  fits : s.mlen ≤ s.msgCap
  off : s.off.toNat = 16 * j
  upto : j ≤ nfull s.mlen.toNat
  state : s.v = absorbBlocks s.message s.key j

section

variable {j : Nat} {s : State}

theorem Absorbed.aligned (h : Absorbed j s) : s.off.toNat % 16 = 0 := by
  rw [h.off, Nat.mul_mod_right]

theorem Absorbed.inside (h : Absorbed j s) : s.off ≤ s.mlen := by
  have upto := h.upto
  rw [nfull_eq] at upto
  rw [BitVec.le_def, h.off]
  omega

/-- More than a block is unconsumed exactly while a block is to be absorbed. -/
theorem Absorbed.more_iff (h : Absorbed j s) : 16 < s.unconsumed ↔ j < nfull s.mlen.toNat := by
  rw [State.unconsumed, nfull_eq, h.off]
  omega

/-- After the last block to absorb, the trailing block is left. -/
theorem Absorbed.tail (h : Absorbed (nfull s.mlen.toNat) s) : s.unconsumed ≤ 16 :=
  Nat.not_lt.mp (mt h.more_iff.mp (Nat.lt_irrefl _))

theorem absorbed_startAbsorb (fits : s.mlen ≤ s.msgCap) : Absorbed 0 s.startAbsorb := ⟨fits, rfl, Nat.zero_le _, rfl⟩

/-- U_ABSORB absorbs block `j`. -/
theorem Absorbed.absorbBlock (h : Absorbed j s) (more : 16 < s.unconsumed) :
    Absorbed (j + 1) (s.xorV (words (blockOfList (s.msgSlice s.off.toNat 16)))).permuteV.advanceOff where
  fits := h.fits
  off := (toNat_off_advanceOff more).trans (by rw [h.off, Nat.mul_succ])
  upto := h.more_iff.mp more
  state := by
    have block : 16 * j + 16 ≤ s.mlen.toNat := by rw [State.unconsumed, h.off] at more; omega
    calc (permRun (s.v.xor (words (blockOfList (s.msgSlice s.off.toNat 16))))).x
      _ = absorb s.v (blockOfList (s.msgSlice s.off.toNat 16)) := permRun_x _
      _ = absorb (absorbBlocks s.message s.key j) (blockAt s.message j) := by rw [blockAt_message block, h.off, h.state]

/-- U_SELECT after the last absorbed block finds the trailing block and its subkey (R133, R142). -/
theorem Absorbed.microStep_select (h : Absorbed (nfull s.mlen.toNat) s) (hp : s.phase = .select) :
    microStep s = .next (s.selectTail (trail s.message).1 (trail s.message).2) := by
  rw [Machine.microStep_select hp h.inside h.fits h.tail]
  split
  · next whole => rw [whole, trail_message_of_whole h.off whole]
  · next part => rw [trail_message_of_part h.off (lt_of_le_of_ne h.tail part)]; rfl

theorem run_of_extract (hp : s.phase = .extract) (aligned : s.off.toNat % 16 = 0) (final : s.v = s.finalV) :
    SequencerRun 1 s s.macDone := by
  refine .micro (by simp [hp]) aligned (microStep_extract hp) ?_
  rw [final]
  exact .atRest rfl

theorem run_of_final (hp : s.phase = .final) (aligned : s.off.toNat % 16 = 0)
    (absorbed : s.v = absorbBlocks s.message s.key (nfull s.mlen.toNat)) (found : (s.buf, s.sel) = trail s.message) :
    SequencerRun 2 s s.macDone := by
  have op := microStep_final hp
  refine .cons (by simp [hp]) aligned op rfl (run_of_extract rfl aligned ?_)
  rw [State.finalV_congr (microStep_keeps_outsideMac op)]
  calc ((permRun ((s.v.xor (words s.buf)).xor s.subkey)).x).xor s.subkey
    _ = finalize s.v s.buf (pickSubkey s.sel s.k1 s.k2) := by rw [permRun_x]; rfl
    _ = s.finalV := by rw [State.finalV, macState, ← found, length_message, absorbed]

theorem Absorbed.run_of_select (h : Absorbed (nfull s.mlen.toNat) s) (hp : s.phase = .select) :
    SequencerRun 3 s s.macDone :=
  .cons (by simp [hp]) h.aligned (h.microStep_select hp) rfl (run_of_final rfl h.aligned h.state rfl)

/-- With `n` blocks to absorb, `n + 4` micro-operations are left: by induction on `n`, one U_ABSORB a block. -/
theorem Absorbed.run_of_absorb {n : Nat} (h : Absorbed j s) (hp : s.phase = .absorb)
    (left : j + n = nfull s.mlen.toNat) : SequencerRun (n + 4) s s.macDone := by
  have running : s.phase ≠ .idle := by simp [hp]
  induction n generalizing j s with
  | zero =>
    obtain rfl : j = nfull s.mlen.toNat := left
    have selecting : Absorbed (nfull s.mlen.toNat) (s.setPhase .select) := ⟨h.fits, h.off, h.upto, h.state⟩
    exact .cons running h.aligned (microStep_absorbEnd hp h.inside h.tail) rfl (selecting.run_of_select rfl)
  | succ n ih =>
    have more : 16 < s.unconsumed := h.more_iff.mpr (by omega)
    exact .cons running h.aligned (microStep_absorbBlock hp h.inside h.fits more) rfl
      (ih (h.absorbBlock more) hp ((Nat.succ_add_eq_add_succ j n).trans left) running)

/-- After U_INIT nfull(MLEN) + 4 micro-operations are left. -/
theorem run_of_startAbsorb (fits : s.mlen ≤ s.msgCap) :
    SequencerRun (nfull s.mlen.toNat + 4) s.startAbsorb s.startAbsorb.macDone :=
  (absorbed_startAbsorb fits).run_of_absorb rfl (Nat.zero_add _)

/-- A MAC command takes nfull(MLEN) + 5 micro-operations from INIT (R148). -/
theorem run_of_acceptMac (fits : s.mlen ≤ s.msgCap) (aligned : s.off.toNat % 16 = 0) (n : TagLen) :
    SequencerRun (nfull s.mlen.toNat + 5) (s.acceptMac n) (s.acceptMac n).macDone :=
  .cons (by simp) aligned (microStep_init rfl) rfl (run_of_startAbsorb (s := s.acceptMac n) fits)

end

/-! ## The command (R139) -/

section

variable {s : State} {t : Nat}

theorem legalTagLen_of_legal (legal : 1 ≤ t ∧ t ≤ 16) {n : TagLen} (value : n.val = t) : legalTagLen t = some n := by
  obtain ⟨lower, upper⟩ := legal
  exact legalTagLen_eq_some.mpr ⟨lower, upper, value⟩

/-- A legal TLEN can be held as a tag length. -/
theorem exists_tagLen (legal : 1 ≤ t ∧ t ≤ 16) : ∃ n : TagLen, n.val = t := by
  obtain ⟨-, upper⟩ := legal
  exact ⟨⟨t, Nat.lt_succ_of_le upper⟩, rfl⟩

/-- An accepted MAC command in closed form, whatever the scratch state was before it. -/
theorem MacAccepted.exec_eq (acc : MacAccepted s t) {n : TagLen} (value : n.val = t) :
    exec (.mac t) s = .next (s.acceptMac n).macDone := by
  have fits : ¬ s.msgCap < s.mlen := BitVec.not_lt.mpr acc.message_fits
  calc exec (.mac t) s
    _ = runSequencer (nfull s.mlen.toNat + 5) (s.acceptMac n) := by
      rw [exec, execMac, ignoredIfErr_ready _ acc.no_err, legalTagLen_of_legal acc.tlen_legal value]
      simp [acc.key_valid, acc.subkeys_valid, fits]
    _ = runSequencer (nfull s.mlen.toNat + 4) (s.acceptMac n).startAbsorb :=
      runSequencer_succ _ (by simp) (microStep_init rfl)
    _ = .next (s.acceptMac n).startAbsorb.macDone :=
      (run_of_startAbsorb (s := s.acceptMac n) acc.message_fits).runSequencer_eq
    _ = .next (s.acceptMac n).macDone := congrArg Host.Outcome.next (State.macDone_congr (by simp) (by simp))

theorem exec_mac_of_err (faulted : s.err = true) : exec (.mac t) s = .next s := by
  rw [exec, execMac, ignoredIfErr_err _ faulted]

theorem exec_mac_tagLen (ready : s.err = false) (illegal : t = 0 ∨ 17 ≤ t) :
    exec (.mac t) s = .next (s.raise .tagLen) := by
  rw [exec, execMac, ignoredIfErr_ready _ ready, legalTagLen_eq_none.mpr illegal]

theorem exec_mac_noSubkey (ready : s.err = false) (legal : 1 ≤ t ∧ t ≤ 16) (key : s.kv = true)
    (subkeys : s.skv = false) : exec (.mac t) s = .next (s.raise .noSubkey) := by
  obtain ⟨n, value⟩ := exists_tagLen legal
  simp [exec, execMac, ignoredIfErr_ready _ ready, legalTagLen_of_legal legal value, key, subkeys]

theorem exec_mac_mLen (ready : s.err = false) (legal : 1 ≤ t ∧ t ≤ 16) (key : s.kv = true)
    (subkeys : s.skv = true) (exceeds : s.msgCap < s.mlen) : exec (.mac t) s = .next (s.raise .mLen) := by
  obtain ⟨n, value⟩ := exists_tagLen legal
  simp [exec, execMac, ignoredIfErr_ready _ ready, legalTagLen_of_legal legal value, key, subkeys, exceeds]

end

/-- The message byte by byte (20_memory.md R51). -/
theorem message_eq_map (s : State) : s.message = (List.range s.mlen.toNat).map s.msgByte := by
  simp [State.message, State.msgSlice]

/-- The delivered bytes, read from the byte sequence that `mac` gives (R144). -/
theorem tagByte_eq_getD_take (x : Quad) (n : TagLen) {i : Nat} (h : i < 16) :
    tagByte x n i = if i < n.val then ((bytes x).toList.take n.val).getD i 0 else 0 := by
  rw [tagByte_eq_getD x n h]
  split
  · next inside => rw [List.getD_eq_getElem?_getD, List.getD_eq_getElem?_getD, List.getElem?_take_of_lt inside]
  · rfl

/-- Settles O21: the closed form of the accepted command, each of the faults, and the word of the command. -/
theorem macDeliversTheTag : Obligations.MacDeliversTheTag := by
  refine ⟨fun s t acc => ?_, fun s t ready => ⟨exec_mac_tagLen ready, exec_mac_noKey ready, exec_mac_noSubkey ready,
    exec_mac_mLen ready⟩, fun s t => exec_mac_of_err, fun t small => ?_⟩
  · obtain ⟨n, rfl⟩ := exists_tagLen acc.tlen_legal
    obtain ⟨-, upper⟩ := acc.tlen_legal
    refine ⟨_, n, 0, mac_of_legal _ _ _ _ acc.tlen_legal, ?_, rfl, ?_⟩
    · rw [List.length_take, Vector.length_toList, min_eq_left upper]
    · rw [acc.exec_eq rfl, ← message_eq_map, ← Block.ofFn_congr fun _ h => tagByte_eq_getD_take _ n h]
      rfl
  · exact decode_encode (i := .mac t) (decide_eq_true small)

/-- Settles O26: the second command finds the key, the subkeys and the message of the first, and its flags and scratch
state as the first left them. -/
theorem macIsRepeatable : Obligations.MacIsRepeatable := by
  intro s u t acc run
  obtain ⟨n, value⟩ := exists_tagLen acc.tlen_legal
  cases (acc.exec_eq value).symm.trans run
  have again : MacAccepted (s.acceptMac n).macDone t :=
    ⟨acc.no_err, acc.tlen_legal, acc.key_valid, acc.subkeys_valid, acc.message_fits⟩
  have same : ((s.acceptMac n).macDone.acceptMac n).macDone = (s.acceptMac n).macDone :=
    State.macDone_congr (by simp) (by simp)
  rw [again.exec_eq value, same]

/-- Settles O53: the small steps and the command are the same run. -/
theorem smallStepsAgreeWithTheCommand : Obligations.SmallStepsAgreeWithTheCommand := by
  intro s t n acc value aligned
  obtain ⟨u, run, -, last⟩ := (run_of_acceptMac acc.message_fits aligned n).exists_coreRun le_rfl
  rw [acc.exec_eq value, ← last rfl]
  exact run

/-- Settles O54: the run from INIT, which is idle only at its end. -/
theorem sequencerStepCount : Obligations.SequencerStepCount := by
  intro s t n k acc _ aligned bound
  obtain ⟨u, run, idle, -⟩ := (run_of_acceptMac acc.message_fits aligned n).exists_coreRun bound
  exact ⟨u, run, idle⟩

/-- With the idle invariants an accepted command's subkeys are those of KEY (10_state.md R36 (c)). -/
theorem IdleInv.subkeys_of_accepted {s : State} {t : Nat} (inv : IdleInv s) (acc : MacAccepted s t) :
    s.k1 = double s.key ∧ s.k2 = double (double s.key) := by
  obtain ⟨-, hk1, hk2⟩ := inv.data.subkeys acc.subkeys_valid
  exact ⟨hk1, hk1 ▸ hk2⟩

/-- Two cores with the same message bytes hold the same message. -/
theorem message_eq_of_msgByte_eq {s s' : State} (length : s.mlen = s'.mlen)
    (same : ∀ a, a < s.mlen.toNat → s.msgByte a = s'.msgByte a) : s.message = s'.message := by
  rw [message_eq_map, message_eq_map, ← length]
  exact List.map_congr_left fun a ha => same a (List.mem_range.mp ha)

/-- Settles O56: the closed form reads the key, its subkeys, the message and the TLEN. -/
theorem tagDependsOnKeyMessageAndLength : Obligations.TagDependsOnKeyMessageAndLength := by
  intro s s' u u' t inv inv' acc acc' key length same run run'
  obtain ⟨n, value⟩ := exists_tagLen acc.tlen_legal
  cases (acc.exec_eq value).symm.trans run
  cases (acc'.exec_eq value).symm.trans run'
  obtain ⟨hk1, hk2⟩ := inv.subkeys_of_accepted acc
  obtain ⟨hk1', hk2'⟩ := inv'.subkeys_of_accepted acc'
  have final : s.finalV = s'.finalV := by
    rw [State.finalV, State.finalV, hk1, hk2, hk1', hk2', key, message_eq_of_msgByte_eq length same]
  simp only [State.macDone_tag, State.macDone_tl, State.finalV_congr (State.outsideMac_acceptMac _ n),
    State.acceptMac_taglen, final, and_self]

end Sys2Proof.Machine
end

section
/-! PROOF. One host transaction at the port (43_host_commands.md R160 to R167): what the step that performs it answers,
and the commands NOP and LDKEY. -/

namespace Sys2Proof.Machine

/-! ## The step that performs a transaction -/

/-- The transaction is taken from the list and performed. -/
theorem AtPort.step_eq {s : State} {x : HostTxn} {rest : List HostTxn} (port : AtPort s x rest) :
    step s = hostTxn x (s.setPending rest) :=
  calc step s
    _ = portStep s := step_idle port.off_legal port.phase_idle
    _ = hostTxn x (s.setPending rest) := portStep_cons port.head

theorem hostTxn_wr {idx : Nat} (register : idx ≠ 0) (val : Word) (s : State) :
    hostTxn (.wr idx val) s = .next (s.writeReg idx val) :=
  if_neg register

/-! ## The index table (R161, R162) -/

theorem readReg_beyond (s : State) {idx : Nat} (beyond : 20 ≤ idx) : s.readReg idx = 0 := by
  unfold State.readReg
  repeat rw [if_neg (by omega)]

theorem writeReg_ignored (s : State) {idx : Nat} (readOnly : ¬ (idx = 2 ∨ 4 ≤ idx ∧ idx ≤ 7)) (val : Word) :
    s.writeReg idx val = s := by
  obtain ⟨mlen, operand⟩ := not_or.mp readOnly
  rw [State.writeReg, if_neg mlen, if_neg operand]

/-- Settles O8: the answer is `readReg`, which is evaluated at each index of the table. -/
theorem readAnswersByTheIndexTable : Obligations.ReadAnswersByTheIndexTable := by
  intro s idx rest port
  have entry {j : Nat} (same : idx = j) : s.readReg idx = s.readReg j := congrArg s.readReg same
  exact ⟨s.readReg idx, port.step_eq,
    entry, entry, entry, entry, entry, entry, entry, entry, entry, entry,
    entry, entry, entry, entry, entry, entry, entry, entry, entry, entry, readReg_beyond s⟩

/-- Settles O9: `writeReg` evaluated at the indices of MLEN and D, and `writeReg_ignored` at every other one. -/
theorem writeStoresByTheIndexTable : Obligations.WriteStoresByTheIndexTable := by
  intro s idx val rest port
  refine ⟨?mlen, ?d0, ?d1, ?d2, ?d3, fun readOnly => ?other⟩
  case mlen | d0 | d1 | d2 | d3 => rintro rfl; exact port.step_eq
  case other =>
    rw [port.step_eq, hostTxn_wr (by omega), writeReg_ignored _ (by omega)]
    rfl

/-! ## MSGWR and RESET (R166, R167) -/

theorem msgByte_withMsg_memWrite (s : State) (off : Nat) (b : Byte) (a : Nat) :
    (s.withMsg (memWrite s.msg off b)).msgByte a = if a = off then b else s.msgByte a := by
  simp only [State.msgByte, State.withMsg, memRead_memWrite]
  split <;> rfl

/-- Settles O11: inside MSG the byte is written, outside nothing is. -/
theorem messageWriteChangesOneByte : Obligations.MessageWriteChangesOneByte := by
  intro s off b rest port
  obtain ⟨inside, write⟩ | ⟨outside, write⟩ := writeMsg_cases (s.setPending rest) off b
  · refine ⟨memWrite s.msg off b, port.step_eq.trans (congrArg Host.Outcome.next write), fun a => ?_,
      fun outside => absurd inside (Nat.not_lt.mpr outside)⟩
    have inside : off < s.msgCap.toNat := inside
    simp only [inside, and_true]
    exact msgByte_withMsg_memWrite (s.setPending rest) off b a
  · refine ⟨s.msg, port.step_eq.trans (congrArg Host.Outcome.next write), fun a => ?_, fun _ => rfl⟩
    have outside : ¬ off < s.msgCap.toNat := Nat.not_lt.mpr outside
    simp only [outside, and_false, if_false]
    rfl

/-- Settles O12: the RESET transaction is performed on the state without it. -/
theorem resetTransactionRestoresResetValues : Obligations.ResetTransactionRestoresResetValues :=
  fun _ _ port => port.step_eq

/-! ## The commands NOP and LDKEY (R164, R165) -/

/-- Settles O16: the action of the command and its word. -/
theorem nopChangesNothing : Obligations.NopChangesNothing :=
  ⟨fun _ => rfl, decode_encode (i := .nop) rfl⟩

section

variable {s : State}

theorem exec_ldkey_of_err (faulted : s.err = true) : exec .ldkey s = .next s := by
  rw [exec, execLdkey, ignoredIfErr_err _ faulted]

theorem exec_ldkey_ready (ready : s.err = false) : exec .ldkey s = .next (s.setKey s.d) := by
  rw [exec, execLdkey, ignoredIfErr_ready _ ready]

end

/-- Settles O17: the action of the command, the guard on ERR, and the word of the command. -/
theorem ldkeyLoadsTheKey : Obligations.LdkeyLoadsTheKey :=
  ⟨fun _ => exec_ldkey_ready, fun _ => exec_ldkey_of_err, decode_encode (i := .ldkey) rfl⟩

end Sys2Proof.Machine
end

section
/-! PROOF. Progress (43_host_commands.md R170): a command and a host transaction answer a next state from every state,
and a micro-operation from every state that the invariant of a running MAC command allows. -/

namespace Sys2Proof.Machine

/-! ## Commands and transactions -/

section

variable (s : State)

/-- A MAC command is ignored, fails one of its four checks, or is accepted. -/
theorem exec_mac_answers (n : Nat) : ∃ t, exec (.mac n) s = .next t := by
  cases err : s.err with
  | true => exact ⟨_, exec_mac_of_err err⟩
  | false =>
  by_cases legal : 1 ≤ n ∧ n ≤ 16
  case neg => exact ⟨_, exec_mac_tagLen err (by omega)⟩
  cases key : s.kv with
  | false => exact ⟨_, exec_mac_noKey err legal key⟩
  | true =>
  cases subkeys : s.skv with
  | false => exact ⟨_, exec_mac_noSubkey err legal key subkeys⟩
  | true =>
  by_cases exceeds : s.msgCap < s.mlen
  · exact ⟨_, exec_mac_mLen err legal key subkeys exceeds⟩
  · obtain ⟨len, value⟩ := exists_tagLen legal
    exact ⟨_, MacAccepted.exec_eq ⟨err, legal, key, subkeys, BitVec.not_lt.mp exceeds⟩ value⟩

theorem ignoredIfErr_answers {act : State → Outcome} (ready : ∃ t, act s = .next t) :
    ∃ t, ignoredIfErr s act = .next t := by
  cases err : s.err with
  | true => exact ⟨s, ignoredIfErr_err act err⟩
  | false => rwa [ignoredIfErr_ready act err]

theorem exec_answers (i : Instr) : ∃ t, exec i s = .next t := by
  cases i with
  | nop => exact ⟨s, rfl⟩
  | ldkey => rw [exec, execLdkey]; exact ignoredIfErr_answers s ⟨_, rfl⟩
  | derive =>
    rw [exec, execDerive]
    refine ignoredIfErr_answers s ?_
    split
    · exact ⟨_, rfl⟩
    · exact ⟨_, rfl⟩
  | dbl => rw [exec, execDbl]; exact ignoredIfErr_answers s ⟨_, rfl⟩
  | perm => rw [exec, execPerm]; exact ignoredIfErr_answers s ⟨_, rfl⟩
  | mac n => exact exec_mac_answers s n

theorem commandWord_answers (w : Word) : ∃ t, commandWord w s = .next t := by
  cases hw : decode w with
  | ok i => rw [commandWord_ok s hw]; exact exec_answers s i
  | error e => rw [commandWord_error s hw]; exact ignoredIfErr_answers s ⟨_, rfl⟩

theorem hostTxn_answers (x : HostTxn) : ∃ t, hostTxn x s = .next t := by
  cases x with
  | rd | msgwr | reset => exact ⟨_, rfl⟩
  | wr idx val =>
    by_cases command : idx = 0
    · subst command; exact commandWord_answers s val
    · exact ⟨_, hostTxn_wr command val s⟩

theorem portStep_answers : ∃ t, portStep s = .next t := by
  cases waiting : s.pending with
  | nil => exact ⟨s, by rw [portStep, waiting]⟩
  | cons x rest => rw [portStep_cons waiting]; exact hostTxn_answers _ x

end

/-! ## Micro-operations -/

/-- In SELECT the trailing block is all that is left (42_mac_block_processor.md R142). -/
theorem BusyInv.unconsumed_le_of_select {s : State} (h : BusyInv s) (hp : s.phase = .select) : s.unconsumed ≤ 16 := by
  obtain ⟨-, all⟩ := (scratchInv_select hp).mp h.scratch
  obtain ⟨aligned, -⟩ := h.off_legal
  rw [nfull_eq] at all
  rw [State.unconsumed]
  omega

/-- The sequencer reads inside the message, and the message lies in MSG. -/
theorem BusyInv.microStep_answers {s : State} (h : BusyInv s) : ∃ t, microStep s = .next t := by
  obtain ⟨-, -, -, fits⟩ := h.accepted
  obtain ⟨-, inside⟩ := h.off_legal
  cases hp : s.phase with
  | idle => exact absurd hp h.phase_ne_idle
  | init => exact ⟨_, microStep_init hp⟩
  | absorb =>
    by_cases more : 16 < s.unconsumed
    · exact ⟨_, microStep_absorbBlock hp inside fits more⟩
    · exact ⟨_, microStep_absorbEnd hp inside (Nat.not_lt.mp more)⟩
  | select => exact ⟨_, microStep_select hp inside fits (h.unconsumed_le_of_select hp)⟩
  | final => exact ⟨_, microStep_final hp⟩
  | extract => exact ⟨_, microStep_extract hp⟩

/-- Settles O35: an idle core by `portStep_answers`, a running sequencer by `BusyInv.microStep_answers`. -/
theorem invariantStatesNeverStop : Obligations.InvariantStatesNeverStop := by
  rintro s (idle | busy)
  · rw [step_idle (by rw [idle.rest.off_zero]; rfl) idle.rest.phase_idle]
    exact portStep_answers s
  · obtain ⟨aligned, -⟩ := busy.off_legal
    rw [step_busy aligned busy.phase_ne_idle]
    exact busy.microStep_answers

end Sys2Proof.Machine
end

section
/-! PROOF. The host's use of the core (43_host_commands.md R168; 30_encoding.md R81): a list of waiting transactions is
served one a step, and the sequences of `derive_subkeys` and `compute_tag` are put together from their parts. -/

namespace Sys2Proof.Machine

/-! ## Serving a list of transactions -/

/-- With the transactions `ts` waiting before any others, the core goes from `s` to `u` in one step for each and leaves
the others waiting. What waits in `s` and `u` themselves does not matter. -/
def Serves (ts : List HostTxn) (s u : State) : Prop :=
  ∀ rest, Host.Core.run Sys2Proof.core ts.length (s.setPending (ts ++ rest)) = .next (u.setPending rest)

theorem coreRun_add {s t : State} {k : Nat} (n : Nat) (first : Host.Core.run Sys2Proof.core k s = .next t) :
    Host.Core.run Sys2Proof.core (k + n) s = Host.Core.run Sys2Proof.core n t := by
  induction k generalizing s with
  | zero => cases first; rw [Nat.zero_add]
  | succ k ih =>
    cases hstep : step s with
    | next u =>
      rw [coreRun_succ k hstep] at first
      rw [Nat.succ_add, coreRun_succ _ hstep, ih first]
    | fault f =>
      have hstep : Sys2Proof.core.step s = .fault f := hstep
      simp [Host.Core.run, hstep] at first
    | refused r =>
      have hstep : Sys2Proof.core.step s = .refused r := hstep
      simp [Host.Core.run, hstep] at first

section

variable {s t u : State}

theorem Serves.nil : Serves [] s s := fun _ => rfl

theorem Serves.append {ts us : List HostTxn} (first : Serves ts s t) (second : Serves us t u) :
    Serves (ts ++ us) s u := fun rest => by
  rw [List.length_append, List.append_assoc, coreRun_add _ (first (us ++ rest)), second rest]

/-- One transaction at rest, when it does not depend on what waits behind it. -/
theorem AtRest.serves {x : HostTxn} (rest : AtRest s)
    (txn : ∀ later, hostTxn x (s.setPending later) = .next (t.setPending later)) : Serves [x] s t := fun later => by
  have port : AtPort (s.setPending ([x] ++ later)) x later :=
    ⟨rest.phase_idle, by rw [State.setPending_off, rest.off_zero]; rfl, rfl⟩
  exact coreRun_succ 0 (port.step_eq.trans (txn later))

theorem Serves.cons {x : HostTxn} {ts : List HostTxn} (first : Serves [x] s t) (later : Serves ts t u) :
    Serves (x :: ts) s u :=
  first.append later

end

/-! ## The parts of the sequences (30_encoding.md R80, R81) -/

/-- A command that is issued by its word is executed. -/
theorem hostTxn_cmd {i : Instr} (wf : i.wf = true) (s : State) : hostTxn (cmd i) s = exec i s :=
  commandWord_ok s (decode_encode wf)

theorem writeReg_setPending (s : State) (ts : List HostTxn) {idx : Nat} {val : Word} :
    (s.setPending ts).writeReg idx val = (s.writeReg idx val).setPending ts := by
  unfold State.writeReg
  repeat' split
  all_goals rfl

theorem scratchPart_writeReg (s : State) {idx : Nat} {val : Word} :
    (s.writeReg idx val).scratchPart = s.scratchPart := by
  unfold State.writeReg
  repeat' split
  all_goals rfl

/-- The answers of several RD transactions, the first one first. -/
def State.answer (s : State) (ws : List Word) : State := { s with replies := s.replies ++ ws }

theorem State.answer_nil (s : State) : s.answer [] = s := by rw [State.answer, List.append_nil]

theorem State.answer_answer (s : State) (ws ws' : List Word) : (s.answer ws).answer ws' = s.answer (ws ++ ws') := by
  simp only [State.answer, List.append_assoc]

section

variable {s : State}

/-- A write of a register but CMD. -/
theorem AtRest.serves_wr (rest : AtRest s) {idx : Nat} (register : idx ≠ 0) (val : Word) :
    Serves [.wr idx val] s (s.writeReg idx val) :=
  rest.serves fun later => (hostTxn_wr register val _).trans (congrArg Host.Outcome.next (writeReg_setPending s later))

theorem AtRest.writeReg (rest : AtRest s) (idx : Nat) (val : Word) : AtRest (s.writeReg idx val) :=
  rest.of_scratchPart_eq (scratchPart_writeReg s)

theorem AtRest.serves_setD (rest : AtRest s) (x : Quad) : Serves (setDTxns x) s (s.setD x) := by
  have at1 := rest.writeReg 4 x.w0
  have at2 := at1.writeReg 5 x.w1
  have at3 := at2.writeReg 6 x.w2
  exact .cons (rest.serves_wr (by decide) x.w0) <| .cons (at1.serves_wr (by decide) x.w1) <|
    .cons (at2.serves_wr (by decide) x.w2) <| at3.serves_wr (by decide) x.w3

theorem AtRest.serves_setKey (rest : AtRest s) (ready : s.err = false) (x : Quad) :
    Serves (setKeyTxns x) s ((s.setD x).setKey x) :=
  have atRest : AtRest (s.setD x) := rest.of_scratchPart_eq rfl
  (rest.serves_setD x).append
    (atRest.serves fun _ => (hostTxn_cmd rfl _).trans (exec_ldkey_ready ready))

/-- KEY loaded through D, its subkeys derived, and the tag of the old key withdrawn (R96, R165). -/
def State.withKey (s : State) (x : Quad) : State :=
  ((s.setD x).setKey x).setSubkeys (double x) (double (double x))

theorem AtRest.withKey (rest : AtRest s) (x : Quad) : AtRest (s.withKey x) := rest.of_scratchPart_eq rfl

theorem AtRest.serves_withKey (rest : AtRest s) (ready : s.err = false) (x : Quad) :
    Serves (setKeyTxns x ++ [cmd .derive]) s (s.withKey x) :=
  have atRest : AtRest ((s.setD x).setKey x) := rest.of_scratchPart_eq rfl
  (rest.serves_setKey ready x).append
    (atRest.serves fun _ => (hostTxn_cmd rfl _).trans (exec_derive_ready ready rfl))

theorem AtRest.serves_rd (rest : AtRest s) (idxs : List Nat) :
    Serves (idxs.map .rd) s (s.answer (idxs.map s.readReg)) := by
  induction idxs generalizing s with
  | nil => rw [List.map_nil, List.map_nil, State.answer_nil]; exact .nil
  | cons idx idxs ih =>
    have first : Serves [.rd idx] s (s.answer [s.readReg idx]) := rest.serves fun _ => rfl
    have later := ih (s := s.answer [s.readReg idx]) (rest.of_scratchPart_eq rfl)
    rw [State.answer_answer] at later
    exact first.cons later

/-! ## The message -/

/-- The bytes `bs` written from offset `off` on. -/
def memWriteBytes : Memory → Nat → List Byte → Memory
  | m, _, [] => m
  | m, off, b :: bs => memWriteBytes (memWrite m off b) (off + 1) bs

theorem memRead_memWriteBytes_below (m : Memory) {off a : Nat} (bs : List Byte) (below : a < off) :
    memRead (memWriteBytes m off bs) a = memRead m a := by
  induction bs generalizing m off with
  | nil => rfl
  | cons b bs ih => rw [memWriteBytes, ih _ (Nat.lt_succ_of_lt below), memRead_memWrite_other m b below.ne]

/-- Byte `i` of the bytes written from `off` on stands at `off + i`. -/
theorem memRead_memWriteBytes (m : Memory) (off : Nat) {bs : List Byte} {i : Nat} (inside : i < bs.length) :
    memRead (memWriteBytes m off bs) (off + i) = some bs[i] := by
  induction bs generalizing m off i with
  | nil => cases inside
  | cons b bs ih =>
    cases i with
    | zero => exact (memRead_memWriteBytes_below _ bs (Nat.lt_succ_self off)).trans (memRead_memWrite_same m off b)
    | succ i =>
      rw [← Nat.succ_add_eq_add_succ]
      exact ih (memWrite m off b) (off + 1) (Nat.lt_of_succ_lt_succ inside)

theorem writeMsg_inside {off : Nat} (b : Byte) (inside : off < s.msgCap.toNat) :
    s.writeMsg off b = s.withMsg (memWrite s.msg off b) :=
  if_pos inside

theorem AtRest.serves_msg (rest : AtRest s) {off : Nat} {bs : List Byte} (fits : off + bs.length ≤ s.msgCap.toNat) :
    Serves (msgTxns off bs) s (s.withMsg (memWriteBytes s.msg off bs)) := by
  induction bs generalizing s off with
  | nil => exact .nil
  | cons b bs ih =>
    rw [List.length_cons] at fits
    have inside : off < s.msgCap.toNat := by omega
    have first : Serves [.msgwr off b] s (s.withMsg (memWrite s.msg off b)) :=
      rest.serves fun _ => congrArg Host.Outcome.next (writeMsg_inside b inside)
    have fits : off + 1 + bs.length ≤ s.msgCap.toNat := by omega
    exact first.cons (ih (s := s.withMsg (memWrite s.msg off b)) (rest.of_scratchPart_eq rfl) fits)

/-- The message `m` in MSG, with its length in MLEN (20_memory.md R51). -/
def State.withMessage (s : State) (m : List Byte) : State :=
  (s.withMsg (memWriteBytes s.msg 0 m)).setMlen (BitVec.ofNat 32 m.length)

section

variable {m : List Byte}

theorem AtRest.serves_withMessage (rest : AtRest s) (fits : m.length ≤ s.msgCap.toNat) :
    Serves (setMsgTxns m) s (s.withMessage m) :=
  have atRest : AtRest (s.withMsg (memWriteBytes s.msg 0 m)) := rest.of_scratchPart_eq rfl
  (rest.serves_msg (by rwa [Nat.zero_add])).append (atRest.serves_wr (by decide) _)

/-- The length of a message that fits is a word. -/
theorem toNat_mlen_withMessage (fits : m.length ≤ s.msgCap.toNat) : (s.withMessage m).mlen.toNat = m.length :=
  Nat.mod_eq_of_lt (fits.trans_lt s.msgCap.isLt)

theorem message_withMessage (fits : m.length ≤ s.msgCap.toNat) : (s.withMessage m).message = m := by
  have length := toNat_mlen_withMessage fits
  refine List.ext_getElem (by rw [length_message, length]) fun i _ inside => ?_
  have written : memRead (s.withMessage m).msg i = some m[i] :=
    (congrArg (memRead _) (Nat.zero_add i).symm).trans (memRead_memWriteBytes s.msg 0 inside)
  simp [message_eq_map, State.msgByte, written]

end

/-! ## The sequences (43_host_commands.md R168) -/

/-- A MAC command at rest, by its closed form. -/
theorem AtRest.serves_mac {t : Nat} {n : TagLen} (rest : AtRest s) (acc : MacAccepted s t) (value : n.val = t) :
    Serves [cmd (.mac t)] s (s.acceptMac n).macDone := by
  obtain ⟨-, upper⟩ := acc.tlen_legal
  have wf : (Instr.mac t).wf = true := decide_eq_true (upper.trans_lt (by decide))
  refine rest.serves fun later => ?_
  have accLater : MacAccepted (s.setPending later) t :=
    ⟨acc.no_err, acc.tlen_legal, acc.key_valid, acc.subkeys_valid, acc.message_fits⟩
  exact (hostTxn_cmd wf _).trans (accLater.exec_eq value)

theorem atRest_macDone (s : State) : AtRest s.macDone := atRest_toIdle _

/-- The core before the MAC command of `compute_tag`: the key with its subkeys, and the message. -/
def State.loaded (s : State) (key : Quad) (m : List Byte) : State := (s.withKey key).withMessage m

section

variable {key : Quad} {m : List Byte}

theorem AtRest.loaded (rest : AtRest s) : AtRest (s.loaded key m) := rest.of_scratchPart_eq rfl

theorem AtRest.serves_loaded (rest : AtRest s) (ready : s.err = false) (fits : m.length ≤ s.msgCap.toNat) :
    Serves (setKeyTxns key ++ [cmd .derive] ++ setMsgTxns m) s (s.loaded key m) :=
  (rest.serves_withKey ready key).append ((rest.withKey key).serves_withMessage fits)

theorem macAccepted_loaded {t : Nat} (ready : s.err = false) (fits : m.length ≤ s.msgCap.toNat)
    (legal : 1 ≤ t ∧ t ≤ 16) : MacAccepted (s.loaded key m) t where
  no_err := ready
  tlen_legal := legal
  key_valid := rfl
  subkeys_valid := rfl
  message_fits := (toNat_mlen_withMessage (s := s.withKey key) fits).trans_le fits

theorem finalV_loaded (fits : m.length ≤ s.msgCap.toNat) :
    (s.loaded key m).finalV = macState key (double key) (double (double key)) m :=
  congrArg (macState key (double key) (double (double key))) (message_withMessage (s := s.withKey key) fits)

end

/-- The first bytes of a delivered tag are those of V (R144). -/
theorem take_bytes_deliveredTag (x : Quad) (n : TagLen) :
    (bytes (words (Block.ofFn (tagByte x n)))).toList.take n.val = (bytes x).toList.take n.val := by
  refine List.ext_getElem (by simp) fun i inside _ => ?_
  have inTag : i < n.val := (List.length_take_le _ _).trans_lt' inside
  simp [bytes_words, tagByte, inTag]

end

/-- Settles O57: the key with its subkeys, then the words of K1 and K2 read. -/
theorem deriveSubkeysOnTheHostInterface : Obligations.DeriveSubkeysOnTheHostInterface := by
  intro s key rest inv ready waiting
  have served : Serves (deriveSubkeysTxns key) s
      ((s.withKey key).answer ([8, 9, 10, 11, 12, 13, 14, 15].map (s.withKey key).readReg)) :=
    (inv.rest.serves_withKey ready key).append
      ((inv.rest.withKey key).serves_rd [8, 9, 10, 11, 12, 13, 14, 15])
  have run := served rest
  rw [← waiting] at run
  exact ⟨_, run, rfl, ready, rfl, rfl⟩

/-- Settles O58: the key with its subkeys, the message, the MAC command, and the words of STATUS and TAG read. -/
theorem computeTagOnTheHostInterface : Obligations.ComputeTagOnTheHostInterface := by
  intro s key m t rest inv ready fits lower upper waiting
  have acc : MacAccepted (s.loaded key m) t := macAccepted_loaded ready fits ⟨lower, upper⟩
  obtain ⟨n, value⟩ := exists_tagLen acc.tlen_legal
  have served : Serves (computeTagTxns key m t) s
      (((s.loaded key m).acceptMac n).macDone.answer
        ([1, 16, 17, 18, 19].map ((s.loaded key m).acceptMac n).macDone.readReg)) :=
    (inv.rest.serves_loaded ready fits).append <|
      (inv.rest.loaded.serves_mac acc value).cons <| (atRest_macDone _).serves_rd [1, 16, 17, 18, 19]
  have run := served rest
  rw [← waiting] at run
  refine ⟨_, _, _, _, _, _, _, run, rfl, rfl, rfl, ready, rfl, mac_of_legal _ _ _ _ acc.tlen_legal, ?_⟩
  rw [← finalV_loaded fits, ← value]
  exact take_bytes_deliveredTag _ n

end Sys2Proof.Machine
end

section
/-! PROOF. The faults (60_exceptions.md R182 to R186): which command raises what, the order of the checks, and what
holds from a fault until RESET. -/

namespace Sys2Proof.Machine

section

variable {i : Instr} {s t : State}

/-! ## The fault of a decoded command (R183) -/

/-- The fault that a decoded command calls for with ERR = 0, by R183 (3) to (6); `violation_ok` ties it to the fault of
the word. -/
def commandViolation (s : State) : Instr → Option ECode
  | .mac n =>
    if n = 0 ∨ 17 ≤ n then some .tagLen
    else if s.kv = false then some .noKey
    else if s.skv = false then some .noSubkey
    else if s.msgCap < s.mlen then some .mLen
    else none
  | .derive => if s.kv = false then some .noKey else none
  | .nop | .ldkey | .dbl | .perm => none

theorem toNat_and_tlenMask (w : Word) : (w &&& 0x1F).toNat = w.toNat % 32 := by
  rw [BitVec.toNat_and]
  exact Nat.and_two_pow_sub_one_eq_mod w.toNat 5

/-- On a word that decodes the masks of `violation` read the operand that the decoder reads. -/
theorem violation_ok {w : Word} (s : State) (word : decode w = .ok i) : violation s w = commandViolation s i := by
  cases i with
  | nop | ldkey | derive | dbl | perm =>
    obtain ⟨rfl, -⟩ := word_of_decode word
    rfl
  | mac n =>
    obtain ⟨row, rfl⟩ := (decode_mac_iff w n).mp word
    rw [violation, if_pos row, toNat_and_tlenMask, commandViolation]

theorem violation_error {w : Word} {e : DecodeError} (s : State) (illegal : decode w = .error e) :
    violation s w = some .opcode := by
  have noCommand (i : Instr) (word : decode w = .ok i) : False := nomatch illegal.symm.trans word
  have noFixed {i : Instr} (wf : i.wf = true) : w ≠ encode i := by
    rintro rfl
    exact noCommand i (decode_encode wf)
  have mac : ¬ w &&& 0xFFFFFFE0 = 0x50000000 := fun row => noCommand _ ((decode_mac_iff w _).mpr ⟨row, rfl⟩)
  have derive : ¬ w = 0x20000000 := noFixed (i := .derive) rfl
  have others : ¬ (w = 0x00000000 ∨ w = 0x10000000 ∨ w = 0x30000000 ∨ w = 0x40000000) := by
    rintro (nop | ldkey | dbl | perm)
    · exact noFixed (i := .nop) rfl nop
    · exact noFixed (i := .ldkey) rfl ldkey
    · exact noFixed (i := .dbl) rfl dbl
    · exact noFixed (i := .perm) rfl perm
  rw [violation, if_neg mac, if_neg derive, if_neg others]

/-- The four checks of a MAC command with TLEN = `n`: the first that fails with the code it raises, or none. -/
inductive MacCheck (s : State) (n : Nat) : Option ECode → Prop
  | tagLen (illegal : n = 0 ∨ 17 ≤ n) : MacCheck s n (some .tagLen)
  | noKey (legal : 1 ≤ n ∧ n ≤ 16) (noKey : s.kv = false) : MacCheck s n (some .noKey)
  | noSubkey (legal : 1 ≤ n ∧ n ≤ 16) (key : s.kv = true) (noSubkey : s.skv = false) : MacCheck s n (some .noSubkey)
  | mLen (legal : 1 ≤ n ∧ n ≤ 16) (key : s.kv = true) (subkeys : s.skv = true) (exceeds : s.msgCap < s.mlen) :
    MacCheck s n (some .mLen)
  | accepted (acc : MacAccepted s n) : MacCheck s n none

theorem macCheck_commandViolation (ready : s.err = false) (n : Nat) : MacCheck s n (commandViolation s (.mac n)) := by
  simp only [commandViolation]
  split
  · next illegal => exact .tagLen illegal
  next notIllegal =>
  have legal : 1 ≤ n ∧ n ≤ 16 := by omega
  split
  · next noKey => exact .noKey legal noKey
  next hasKey =>
  have key := eq_true_of_ne_false hasKey
  split
  · next noSubkey => exact .noSubkey legal key noSubkey
  next hasSubkeys =>
  have subkeys := eq_true_of_ne_false hasSubkeys
  split
  · next exceeds => exact .mLen legal key subkeys exceeds
  · next fits => exact .accepted ⟨ready, legal, key, subkeys, BitVec.not_lt.mp fits⟩

/-- Which command can raise which code (R182). -/
theorem code_of_commandViolation {c : ECode} (ready : s.err = false) (found : commandViolation s i = some c) :
    (i = .derive ∧ c = .noKey) ∨
      ∃ n, i = .mac n ∧ (c = .tagLen ∨ c = .noKey ∨ c = .noSubkey ∨ c = .mLen) := by
  cases i with
  | nop | ldkey | dbl | perm => cases found
  | derive =>
    obtain ⟨-, code⟩ := Option.ite_none_right_eq_some.mp found
    exact .inl ⟨rfl, (Option.some.inj code).symm⟩
  | mac n =>
    refine .inr ⟨n, rfl, ?_⟩
    have check := macCheck_commandViolation ready n
    rw [found] at check
    cases check <;> decide

theorem exec_of_commandViolation {c : ECode} (ready : s.err = false) (found : commandViolation s i = some c) :
    exec i s = .next (s.raise c) := by
  cases i with
  | nop | ldkey | dbl | perm => cases found
  | derive =>
    obtain ⟨noKey, code⟩ := Option.ite_none_right_eq_some.mp found
    cases code
    exact exec_derive_noKey ready noKey
  | mac n =>
    have check := macCheck_commandViolation ready n
    rw [found] at check
    cases check with
    | tagLen illegal => exact exec_mac_tagLen ready illegal
    | noKey legal noKey => exact exec_mac_noKey ready legal noKey
    | noSubkey legal key noSubkey => exact exec_mac_noSubkey ready legal key noSubkey
    | mLen legal key subkeys exceeds => exact exec_mac_mLen ready legal key subkeys exceeds

theorem exec_of_commandViolation_none (ready : s.err = false) (passed : commandViolation s i = none) :
    ∃ t, exec i s = .next t ∧ t.err = s.err ∧ t.ecode = s.ecode := by
  cases i with
  | nop => exact ⟨s, rfl, rfl, rfl⟩
  | ldkey => exact ⟨_, exec_ldkey_ready ready, rfl, rfl⟩
  | derive =>
    have key : s.kv = true := eq_true_of_ne_false fun noKey => nomatch passed.symm.trans (if_pos noKey)
    exact ⟨_, exec_derive_ready ready key, rfl, rfl⟩
  | dbl => exact ⟨_, exec_dbl_ready ready, rfl, rfl⟩
  | perm => exact ⟨_, exec_perm_ready ready, rfl, rfl⟩
  | mac n =>
    have check := macCheck_commandViolation ready n
    rw [passed] at check
    cases check with
    | accepted acc =>
      obtain ⟨len, value⟩ := exists_tagLen acc.tlen_legal
      exact ⟨_, acc.exec_eq value, rfl, rfl⟩

/-! ## Commands while ERR = 1 (R185) -/

theorem exec_of_err (i : Instr) (faulted : s.err = true) : exec i s = .next s := by
  cases i with
  | nop => rfl
  | ldkey => exact exec_ldkey_of_err faulted
  | derive => exact exec_derive_of_err faulted
  | dbl => exact exec_dbl_of_err faulted
  | perm => exact exec_perm_of_err faulted
  | mac n => exact exec_mac_of_err faulted

theorem commandWord_of_err (w : Word) (faulted : s.err = true) : commandWord w s = .next s := by
  cases word : decode w with
  | ok i => rw [commandWord_ok s word, exec_of_err i faulted]
  | error e => rw [commandWord_error s word, ignoredIfErr_err _ faulted]

theorem commandWord_illegal {w : Word} {e : DecodeError} (illegal : decode w = .error e) (ready : s.err = false) :
    commandWord w s = .next (s.raise .opcode) :=
  hostTxn_illegal illegal ready

/-! ## What only a command or a RESET can change -/

/-- The part of the state that is final after a fault: ERR, ECODE, the key, the subkeys, the tag and their flags. -/
def State.faultPart (s : State) : State :=
  { State.reset with
    err := s.err, ecode := s.ecode, key := s.key, k1 := s.k1, k2 := s.k2, tag := s.tag,
    kv := s.kv, skv := s.skv, tv := s.tv, tl := s.tl }

theorem State.faultPart_eq_iff :
    t.faultPart = s.faultPart ↔
      t.err = s.err ∧ t.ecode = s.ecode ∧ t.key = s.key ∧ t.k1 = s.k1 ∧ t.k2 = s.k2 ∧ t.tag = s.tag ∧
        t.kv = s.kv ∧ t.skv = s.skv ∧ t.tv = s.tv ∧ t.tl = s.tl := by
  simp only [State.faultPart, State.mk.injEq]
  tauto

theorem TxnEffect.faultPart_eq {x : HostTxn} (effect : TxnEffect s x t) (command : ∀ w, x ≠ .wr 0 w)
    (reset : x ≠ .reset) : t.faultPart = s.faultPart := by
  cases effect with
  | command w | illegal w => exact absurd rfl (command w)
  | reset => exact absurd rfl reset
  | _ => rfl

/-- While ERR = 1 a command word changes nothing, and so every transaction but RESET keeps that part. -/
theorem hostTxn_of_err_keeps_faultPart {x : HostTxn} (faulted : s.err = true) (reset : x ≠ .reset)
    (h : hostTxn x s = .next t) : t.faultPart = s.faultPart := by
  by_cases command : ∃ w, x = .wr 0 w
  · obtain ⟨w, rfl⟩ := command
    cases (commandWord_of_err w faulted).symm.trans h
    rfl
  · exact (hostTxn_effect h).faultPart_eq (not_exists.mp command) reset

end

/-! ## The obligations -/

/-- Settles O13: a command word by `commandWord_of_err`; the other transactions do not look at ERR. -/
theorem onlyCommandsAreIgnoredAfterAFault : Obligations.OnlyCommandsAreIgnoredAfterAFault := by
  intro s rest faulted
  refine ⟨fun w port => ?command, fun idx port => port.step_eq, fun val port => ⟨_, port.step_eq, rfl⟩,
    fun idx val port lower upper => ?operand, fun off b port inside => ?message⟩
  case command => exact port.step_eq.trans (commandWord_of_err (s := s.setPending rest) w faulted)
  case operand =>
    exact ⟨_, port.step_eq.trans (hostTxn_wr (by omega) val _),
      (readAfterWriteOfARegister _ idx idx val).trans (if_pos ⟨rfl, by omega⟩)⟩
  case message =>
    obtain ⟨m, run, bytes, -⟩ := messageWriteChangesOneByte s off b rest port
    exact ⟨_, run, (bytes off).trans (if_pos ⟨rfl, inside⟩)⟩

/-- Settles O23: a command that ends with ERR = 1 has violated a check, whose code is by `code_of_commandViolation`; an
illegal word raises E_OPCODE; any other transaction keeps ERR or clears it. -/
theorem faultsByCommand : Obligations.FaultsByCommand := by
  intro s ready
  refine ⟨fun i t run raised => ?command, fun w e t illegal run => ?word, fun x t other run => ?transaction⟩
  case command =>
    cases check : commandViolation s i with
    | none =>
      obtain ⟨u, run', kept, -⟩ := exec_of_commandViolation_none ready check
      cases run'.symm.trans run
      exact nomatch (kept.trans ready).symm.trans raised
    | some c =>
      cases (exec_of_commandViolation ready check).symm.trans run
      exact code_of_commandViolation ready check
  case word =>
    cases (commandWord_illegal illegal ready).symm.trans run
    exact ⟨rfl, rfl⟩
  case transaction =>
    by_cases reset : x = .reset
    · subst reset; cases run; rfl
    · obtain ⟨err, -⟩ := State.faultPart_eq_iff.mp ((hostTxn_effect run).faultPart_eq other reset)
      exact err.trans ready

/-- Settles O24: a word that decodes is examined by `commandViolation`, any other one is illegal. -/
theorem firstViolationIsReported : Obligations.FirstViolationIsReported := by
  intro s w
  refine ⟨commandWord_of_err w, fun ready c found => ?_, fun ready passed => ?_⟩
  · cases word : decode w with
    | ok i =>
      rw [violation_ok s word] at found
      exact (commandWord_ok s word).trans (exec_of_commandViolation ready found)
    | error e =>
      cases (violation_error s word).symm.trans found
      exact commandWord_illegal word ready
  · cases word : decode w with
    | ok i =>
      rw [violation_ok s word] at passed
      obtain ⟨t, run, err, ecode⟩ := exec_of_commandViolation_none ready passed
      exact ⟨t, (commandWord_ok s word).trans run, err.trans ready, ecode⟩
    | error e => cases (violation_error s word).symm.trans passed

/-- Settles O30: an idle step is nothing or one transaction, which keeps the part that is final after a fault. -/
theorem faultIsFinalUntilReset : Obligations.FaultIsFinalUntilReset := by
  intro s t faulted idle reset ht
  have kept : t.faultPart = s.faultPart := by
    obtain ⟨-, -, rfl⟩ | ⟨-, x, rest, waiting, run⟩ | ⟨busy, -⟩ := step_cases ht
    · rfl
    · simp only [waiting, List.head?_cons, ne_eq, Option.some.injEq] at reset
      exact hostTxn_of_err_keeps_faultPart (s := s.setPending rest) faulted reset run
    · exact absurd idle busy
  obtain ⟨err, others⟩ := State.faultPart_eq_iff.mp kept
  exact ⟨err.trans faulted, others⟩

/-- Settles O7: the port of an idle core with nothing waiting. -/
theorem idleStepKeepsAllState : Obligations.IdleStepKeepsAllState := by
  intro s idle aligned empty
  calc step s
    _ = portStep s := step_idle aligned idle
    _ = .next s := by rw [portStep, empty]

end Sys2Proof.Machine
end

section
/-! PROOF. The hazard between a new key and the subkeys of the old one (70_reset_and_hazards.md R213). -/

namespace Sys2Proof.Machine

/-- Settles O27: LDKEY sets KV, clears SKV and keeps ERR, so of the checks of MAC the one of the subkeys is the first
that fails. -/
theorem subkeysFollowTheKey : Obligations.SubkeysFollowTheKey := by
  intro s u t ready lower upper load
  cases (exec_ldkey_ready ready).symm.trans load
  exact exec_mac_noSubkey ((s.setKey_err s.d).trans ready) ⟨lower, upper⟩ (s.setKey_kv s.d) (s.setKey_skv s.d)

end Sys2Proof.Machine
end
